-- ==== Sys2Proof/Word.lean ====
section
/-! DEFINITION. The word types of the block: every field is an unsigned bit vector (R9). -/

namespace Sys2Proof

/-- The wire unit, and the width of a device address, a register number and a read length (R7). -/
abbrev Byte := BitVec 8

/-- The width of the payload length (PLEN_W) and of `tx_len` (R7, R17). -/
abbrev Half := BitVec 16

/-- The width of `delay`, `hz`, TIMER and of the response descriptor (R7, R64). -/
abbrev Word := BitVec 32

/-- The request descriptor `req_desc[127:0]` (R48). -/
abbrev Desc := BitVec 128

end Sys2Proof
end

