-- ==== Sys2Proof/Syntax.lean ====
section
/-! DEFINITION. The instructions: one constructor of `Instr` for each row of spec/opcode_table.json. -/

namespace Sys2Proof

/-- The seven command tags of the tag mapper (R52). -/
inductive Tag where
  | setAddress | setLength | setFrequency | write | writeRestart | read | readRestart
  deriving DecidableEq, Repr

/-- The six error codes the firmware can report (R61). -/
inductive ErrorKind where
  | none | unescape | length | read | writeData | sendData
  deriving DecidableEq, Repr

/-- The fields of a request descriptor beside its op code (R48). Every request carries all of them;
an operation reads only its own (R21, R49). -/
structure ReqFields where
  dev   : Byte
  reg   : Byte
  n     : Byte
  delay : Word
  hz    : Word
  plen  : Half
  rsvd  : Half
  deriving DecidableEq, Repr

/-- One constructor per row of the opcode table: 12 request rows (R49, R96), 8 wire tag rows
(R51, R52), 5 wire segment rows (R55), 8 reply byte rows (R62). -/
inductive Instr where
  -- request_op rows: the fields of the descriptor; a reserved range keeps its op code's free low bits
  | writeRaw (d : ReqFields)
  | readRaw (d : ReqFields)
  | writeReg (d : ReqFields)
  | readReg (d : ReqFields)
  | setFreq (d : ReqFields)
  | reserved05 (d : ReqFields)
  | reserved06 (lo : BitVec 1) (d : ReqFields)
  | reserved08 (lo : BitVec 3) (d : ReqFields)
  | reserved10 (lo : BitVec 4) (d : ReqFields)
  | reserved20 (lo : BitVec 5) (d : ReqFields)
  | reserved40 (lo : BitVec 6) (d : ReqFields)
  | reserved80 (lo : BitVec 7) (d : ReqFields)
  -- wire_tag rows: the packet-kind byte and the seven tags, the two selecting tags with their argument
  | packetKind
  | setAddress (dev : Byte)
  | setLength (len : Byte)
  | setFrequency
  | write
  | writeRestart
  | read
  | readRestart
  -- wire_segment rows
  | segRawWrite (dev : Byte) (payload : List Byte)
  | segRegWrite (dev reg : Byte) (payload : List Byte)
  | segAddrRead (dev n : Byte)
  | segWriteRestart (dev reg : Byte)
  | segReadFollow (n : Byte)
  -- reply_byte rows
  | replyZero
  | errNone
  | errUnescape
  | errLength
  | errRead
  | errWriteData
  | errSendData
  | replyAccept (b : Byte)
  deriving DecidableEq, Repr

/-- How the bytes of a codec call are read. A raw write and a register write of one body are the same
bytes (R55), so a reader of segments must be told which operation wrote them (log 22). -/
inductive WireForm where
  | tag | rawSegment | regSegment
  deriving DecidableEq, Repr

/-- The four formats of the opcode table, the segment format in its two readings. -/
inductive Format where
  | request
  | wire (f : WireForm)
  | reply
  deriving DecidableEq, Repr

/-- Why bytes are no instruction of a format. -/
inductive DecodeError where
  /-- fewer bytes than the instruction has -/
  | truncated
  /-- the byte is neither the packet-kind byte nor a command tag (R52) -/
  | notATag (b : Byte)
  /-- the bytes are none of the segment forms (R54, R55) -/
  | notASegment
  deriving DecidableEq, Repr

end Sys2Proof
end

