-- ==== Sys2Proof/Decode.lean ====
section
/-! DEFINITION. The encodings of 30_encoding.md and the serializers of 40_codec.md: tag mapper, error
codes, request descriptor, segments, replies; the decoder, total on any bytes, and after it the
encoder, the reader of a sent message and the register-write parser. -/

namespace Sys2Proof

/-! ## Wire bytes -/

/-- The packet-kind byte `'2'` (R51). -/
def idByte : Byte := 0x32#8

/-- The command tag mapper `TagByte` (R52). -/
def tagByte : Tag → Byte
  | .setAddress   => 0x41#8
  | .setLength    => 0x4C#8
  | .setFrequency => 0x46#8
  | .write        => 0x57#8
  | .writeRestart => 0x77#8
  | .read         => 0x52#8
  | .readRestart  => 0x72#8

/-- `TagOf`, the inverse of the mapper on its seven bytes (R52). -/
def tagOf (b : Byte) : Option Tag :=
  if b = 0x41#8 then some .setAddress
  else if b = 0x4C#8 then some .setLength
  else if b = 0x46#8 then some .setFrequency
  else if b = 0x57#8 then some .write
  else if b = 0x77#8 then some .writeRestart
  else if b = 0x52#8 then some .read
  else if b = 0x72#8 then some .readRestart
  else none

/-- The wire byte of an error code (R61). -/
def errByte : ErrorKind → Byte
  | .none      => 0x4E#8
  | .unescape  => 0x55#8
  | .length    => 0x4C#8
  | .read      => 0x52#8
  | .writeData => 0x57#8
  | .sendData  => 0x53#8

/-- The 3-bit internal code of an error code (R61). -/
def errCode : ErrorKind → BitVec 3
  | .none      => 0#3
  | .unescape  => 1#3
  | .length    => 2#3
  | .read      => 3#3
  | .writeData => 4#3
  | .sendData  => 5#3

/-- `KindOf` on ERRSET, none outside it (R61, R62). -/
def errorKindOf (b : Byte) : Option ErrorKind :=
  if b = 0x4E#8 then some .none
  else if b = 0x55#8 then some .unescape
  else if b = 0x4C#8 then some .length
  else if b = 0x52#8 then some .read
  else if b = 0x57#8 then some .writeData
  else if b = 0x53#8 then some .sendData
  else none

/-! ## Serializers (40_codec.md) -/

/-- The length byte of a body of k bytes (R56); exact for k ≤ 255, which R67 checks first. -/
def lengthByte (k : Nat) : Byte := BitVec.ofNat 8 k

/-- An addressed segment: the six header bytes and the body (R54). -/
def addressedSegment (dev len : Byte) (cmd : Tag) (body : List Byte) : List Byte :=
  [idByte, tagByte .setAddress, dev, tagByte .setLength, len, tagByte cmd] ++ body

/-- `BuildWrite` (R68). -/
def buildWrite (dev : Byte) (payload : List Byte) : List Byte :=
  addressedSegment dev (lengthByte payload.length) .write payload

/-- `BuildWriteRegister` (R69). -/
def buildWriteRegister (dev reg : Byte) (payload : List Byte) : List Byte :=
  addressedSegment dev (lengthByte (payload.length + 1)) .write (reg :: payload)

/-- `BuildReadRequest` (R70). -/
def buildReadRequest (dev n : Byte) : List Byte :=
  addressedSegment dev n .read []

/-- `BuildWriteRestart` (R71). -/
def buildWriteRestart (dev reg : Byte) : List Byte :=
  addressedSegment dev 1#8 .writeRestart [reg]

/-- `BuildReadFollow`: the follow segment (R54, R72). -/
def buildReadFollow (n : Byte) : List Byte :=
  [idByte, tagByte .setLength, n, tagByte .read]

/-- The combined packet of the zero-delay READ_REG (R58). -/
def buildCombined (dev reg n : Byte) : List Byte :=
  buildWriteRestart dev reg ++ buildReadFollow n

/-! ## Request descriptor (R48) -/

/-- The descriptor with op code `op` and the fields `d`. -/
def packDesc (op : Byte) (d : ReqFields) : Desc :=
  d.rsvd ++ d.plen ++ d.hz ++ d.delay ++ d.n ++ d.reg ++ d.dev ++ op

/-- `op`, bits 7 to 0 of the descriptor. -/
def descOp (v : Desc) : Byte := v.extractLsb' 0 8

/-- The other fields of the descriptor. -/
def descFields (v : Desc) : ReqFields where
  dev   := v.extractLsb' 8 8
  reg   := v.extractLsb' 16 8
  n     := v.extractLsb' 24 8
  delay := v.extractLsb' 32 32
  hz    := v.extractLsb' 64 32
  plen  := v.extractLsb' 96 16
  rsvd  := v.extractLsb' 112 16

/-- Byte j of the descriptor is bits 8j+7 to 8j (R40). -/
def descBytes (v : Desc) : List Byte :=
  (List.range 16).map fun j => v.extractLsb' (8 * j) 8

/-- The descriptor a platform presents as bytes (R40): the first byte is the least significant. -/
def descOfBytes (bs : List Byte) : Desc :=
  BitVec.ofNat 128 (bs.foldr (fun b acc => b.toNat + 256 * acc) 0)

/-- The request a descriptor stands for: total, since every op code is defined or reserved (R49, R50). -/
def decodeDesc (v : Desc) : Instr :=
  let op := descOp v
  let d := descFields v
  if op = 0x00#8 then .writeRaw d
  else if op = 0x01#8 then .readRaw d
  else if op = 0x02#8 then .writeReg d
  else if op = 0x03#8 then .readReg d
  else if op = 0x04#8 then .setFreq d
  else if op = 0x05#8 then .reserved05 d
  else if op.extractLsb' 1 7 = 3#7 then .reserved06 (op.extractLsb' 0 1) d
  else if op.extractLsb' 3 5 = 1#5 then .reserved08 (op.extractLsb' 0 3) d
  else if op.extractLsb' 4 4 = 1#4 then .reserved10 (op.extractLsb' 0 4) d
  else if op.extractLsb' 5 3 = 1#3 then .reserved20 (op.extractLsb' 0 5) d
  else if op.extractLsb' 6 2 = 1#2 then .reserved40 (op.extractLsb' 0 6) d
  else .reserved80 (op.extractLsb' 0 7) d

/-- The request a descriptor presented as bytes stands for (R40). -/
def decodeRequest (bs : List Byte) : Except DecodeError (Instr × List Byte) :=
  if 16 ≤ bs.length then .ok (decodeDesc (descOfBytes (bs.take 16)), bs.drop 16)
  else .error .truncated

/-! ## Wire tags and segments -/

/-- A command tag and, for the two selecting tags, the argument byte that follows it (R52). -/
def decodeTagArg (t : Tag) (rest : List Byte) : Except DecodeError (Instr × List Byte) :=
  match t, rest with
  | .setAddress, a :: more => .ok (.setAddress a, more)
  | .setAddress, []        => .error .truncated
  | .setLength, a :: more  => .ok (.setLength a, more)
  | .setLength, []         => .error .truncated
  | .setFrequency, more    => .ok (.setFrequency, more)
  | .write, more           => .ok (.write, more)
  | .writeRestart, more    => .ok (.writeRestart, more)
  | .read, more            => .ok (.read, more)
  | .readRestart, more     => .ok (.readRestart, more)

/-- One wire tag (R51, R52). -/
def decodeTag : List Byte → Except DecodeError (Instr × List Byte)
  | []        => .error .truncated
  | b :: rest =>
    if b = idByte then .ok (.packetKind, rest)
    else match tagOf b with
      | some t => decodeTagArg t rest
      | none   => .error (.notATag b)

/-- The command and body of an addressed segment (R54 to R56, R59). `reg` says whether the body of a
`'W'` segment opens with a register byte. -/
def decodeBody (reg : Bool) (dev len cmd : Byte) (rest : List Byte) :
    Except DecodeError (Instr × List Byte) :=
  if cmd = tagByte .read then .ok (.segAddrRead dev len, rest)
  else if rest.length < len.toNat then .error .truncated
  else
    let body := rest.take len.toNat
    let more := rest.drop len.toNat
    if cmd = tagByte .writeRestart then
      match body with
      | [r] => .ok (.segWriteRestart dev r, more)
      | _   => .error .notASegment
    else if cmd = tagByte .write then
      if reg then
        match body with
        | r :: p => .ok (.segRegWrite dev r p, more)
        | []     => .error .notASegment
      else .ok (.segRawWrite dev body, more)
    else .error .notASegment

/-- One wire segment: addressed when the second byte is `'A'`, follow when it is `'L'` (R54, R59). -/
def decodeSegment (reg : Bool) : List Byte → Except DecodeError (Instr × List Byte)
  | k :: t :: a :: c :: rest =>
    if k ≠ idByte then .error .notASegment
    else if t = tagByte .setLength then
      if c = tagByte .read then .ok (.segReadFollow a, rest) else .error .notASegment
    else if t = tagByte .setAddress ∧ c = tagByte .setLength then
      match rest with
      | len :: cmd :: more => decodeBody reg a len cmd more
      | _                  => .error .truncated
    else .error .notASegment
  | _ => .error .truncated

/-! ## Reply bytes -/

/-- The class of one reply byte (R62): zero, one of the six error codes, or accepted. -/
def decodeReplyByte (b : Byte) : Instr :=
  if b = 0#8 then .replyZero
  else match errorKindOf b with
    | some .none      => .errNone
    | some .unescape  => .errUnescape
    | some .length    => .errLength
    | some .read      => .errRead
    | some .writeData => .errWriteData
    | some .sendData  => .errSendData
    | none            => .replyAccept b

/-- One reply byte of a list (R62). -/
def decodeReply : List Byte → Except DecodeError (Instr × List Byte)
  | []        => .error .truncated
  | b :: rest => .ok (decodeReplyByte b, rest)

/-! ## The decoder -/

/-- One codec call's wire item. -/
def decodeWire (f : WireForm) (bs : List Byte) : Except DecodeError (Instr × List Byte) :=
  match f with
  | .tag        => decodeTag bs
  | .rawSegment => decodeSegment false bs
  | .regSegment => decodeSegment true bs

/-- The first instruction of a byte list in a format, with the rest of the list; total. -/
def decode (f : Format) (bs : List Byte) : Except DecodeError (Instr × List Byte) :=
  match f with
  | .request => decodeRequest bs
  | .wire w  => decodeWire w bs
  | .reply   => decodeReply bs

/-! ## The encoder -/

/-- The op code of a request row (R49, R96); 0 for the rows that are no request. -/
def Instr.opCode : Instr → Byte
  | .writeRaw _      => 0x00#8
  | .readRaw _       => 0x01#8
  | .writeReg _      => 0x02#8
  | .readReg _       => 0x03#8
  | .setFreq _       => 0x04#8
  | .reserved05 _    => 0x05#8
  | .reserved06 lo _ => 3#7 ++ lo
  | .reserved08 lo _ => 1#5 ++ lo
  | .reserved10 lo _ => 1#4 ++ lo
  | .reserved20 lo _ => 1#3 ++ lo
  | .reserved40 lo _ => 1#2 ++ lo
  | .reserved80 lo _ => 1#1 ++ lo
  | .packetKind | .setAddress _ | .setLength _ | .setFrequency | .write | .writeRestart | .read
  | .readRestart | .segRawWrite _ _ | .segRegWrite _ _ _ | .segAddrRead _ _ | .segWriteRestart _ _
  | .segReadFollow _ | .replyZero | .errNone | .errUnescape | .errLength | .errRead | .errWriteData
  | .errSendData | .replyAccept _ => 0#8

/-- The format an instruction is encoded in. -/
def Instr.format : Instr → Format
  | .writeRaw _ | .readRaw _ | .writeReg _ | .readReg _ | .setFreq _ | .reserved05 _
  | .reserved06 _ _ | .reserved08 _ _ | .reserved10 _ _ | .reserved20 _ _ | .reserved40 _ _
  | .reserved80 _ _ => .request
  | .packetKind | .setAddress _ | .setLength _ | .setFrequency | .write | .writeRestart | .read
  | .readRestart => .wire .tag
  | .segRawWrite _ _ | .segAddrRead _ _ | .segReadFollow _ => .wire .rawSegment
  | .segRegWrite _ _ _ | .segWriteRestart _ _ => .wire .regSegment
  | .replyZero | .errNone | .errUnescape | .errLength | .errRead | .errWriteData
  | .errSendData | .replyAccept _ => .reply

/-- The bytes of an instruction in its format: a descriptor's 16 bytes least significant first
(R40, R48), a tag with its argument (R52), a segment (R54, R55), a reply byte (R61, R62). -/
def encode (i : Instr) : List Byte :=
  match i with
  | .writeRaw d | .readRaw d | .writeReg d | .readReg d | .setFreq d | .reserved05 d
  | .reserved06 _ d | .reserved08 _ d | .reserved10 _ d | .reserved20 _ d | .reserved40 _ d
  | .reserved80 _ d         => descBytes (packDesc i.opCode d)
  | .packetKind             => [idByte]
  | .setAddress dev         => [tagByte .setAddress, dev]
  | .setLength len          => [tagByte .setLength, len]
  | .setFrequency           => [tagByte .setFrequency]
  | .write                  => [tagByte .write]
  | .writeRestart           => [tagByte .writeRestart]
  | .read                   => [tagByte .read]
  | .readRestart            => [tagByte .readRestart]
  | .segRawWrite dev p      => buildWrite dev p
  | .segRegWrite dev reg p  => buildWriteRegister dev reg p
  | .segAddrRead dev n      => buildReadRequest dev n
  | .segWriteRestart dev r  => buildWriteRestart dev r
  | .segReadFollow n        => buildReadFollow n
  | .replyZero              => [0#8]
  | .errNone                => [errByte .none]
  | .errUnescape            => [errByte .unescape]
  | .errLength              => [errByte .length]
  | .errRead                => [errByte .read]
  | .errWriteData           => [errByte .writeData]
  | .errSendData            => [errByte .sendData]
  | .replyAccept b          => [b]

/-! ## Readers of sent messages -/

/-- `splitMessage`: the segments of a sent message (R59), at most `fuel` of them; none when the bytes
are not segments all the way. -/
def splitMessage (f : WireForm) : Nat → List Byte → Option (List Instr)
  | _, []            => some []
  | 0, _ :: _        => none
  | fuel + 1, b :: m =>
    match decodeWire f (b :: m) with
    | .ok (i, rest) => (splitMessage f fuel rest).map (i :: ·)
    | .error _      => none

/-- `ParseWriteRegister` (R77), a function of the model, not a unit of the block. -/
def parseWriteRegister (m : List Byte) : Option (Byte × Byte × List Byte) :=
  match m with
  | m0 :: m1 :: dev :: m3 :: m4 :: m5 :: reg :: payload =>
    if m0 = 0x32#8 ∧ m1 = 0x41#8 ∧ m3 = 0x4C#8 ∧ m5 = 0x57#8 ∧ 1 ≤ m4.toNat ∧ m4.toNat = m.length - 6
    then some (dev, reg, payload) else none
  | _ => none

/-! ## Words of the opcode table -/

/-- The format and bytes of a word of spec/opcode_table.json, the bits above `nbits` zero. The table
numbers a one-byte word's bits the same in all its formats, and one byte can stand for a tag, a reply
and an op code at once (R63); it is read as the row with the most fixed bits, the earlier row on a
tie: a tag, else an error code, else an op code (log 19). -/
def tableForm (nbits w : Nat) : Option (Format × List Byte) :=
  let b : Byte := BitVec.ofNat 8 w
  let desc := descBytes (BitVec.ofNat 128 (w % 2 ^ nbits))
  let padded := desc ++ List.replicate 245 0#8
  if 128 < nbits then none
  else if nbits ≤ 8 then
    if b = idByte ∨ (tagOf b).isSome then some (.wire .tag, [b, 0#8])
    else if (errorKindOf b).isSome then some (.reply, [b])
    else some (.request, desc)
  else if (nbits = 32 ∨ nbits = 48) ∧ (decodeSegment false padded).toOption.isSome then
    some (.wire .rawSegment, padded)
  else if nbits = 56 ∧ (decodeSegment true padded).toOption.isSome then
    some (.wire .regSegment, padded)
  else if nbits = 48 ∨ nbits = 56 then none
  else some (.request, desc)

/-- The instruction the decoder reads from a word of the opcode table. -/
def decodeTableWord (nbits w : Nat) : Option Instr :=
  match tableForm nbits w with
  | none         => none
  | some (f, bs) =>
    match decode f bs with
    | .ok (i, _) => some i
    | .error _   => none

end Sys2Proof
end

