-- ==== Sys2Proof/Config.lean ====
section
/-! DEFINITION. What an implementation fixes and the spec leaves OPEN (00_scope R7), and the free values. -/

namespace Sys2Proof

/-- A transport error value. TERR is an OPEN set (R7, R98); the model names its values by numbers and
claims hold for every one of them (log 5). -/
structure TErr where
  code : Nat
  deriving DecidableEq, Repr

/-- One item of the transport's receive stream (R37): a byte the firmware sent and no receive has
consumed yet, or a receive error the transport reports there (R35). -/
inductive RxItem where
  | byte (b : Byte)
  | fail (e : TErr)
  deriving DecidableEq, Repr

namespace Config

/-- LEN_MAX, the largest length byte (R7). -/
abbrev lenMax : Nat := 255

/-- PAYLOAD_CAP, the most payload bytes a request can carry (R7, R22). -/
abbrev payloadCap : Nat := 65535

/-- RXBUF_CAP, the capacity of the receive buffer (R7, R25). -/
abbrev rxbufCap : Nat := 255

/-- TX_MAX, the longest message the builders make (R7, R60). -/
abbrev txMax : Nat := 261

/-- OPEN parameter `isTimeout : TERR → Bool` (R7, R98). -/
opaque isTimeout : TErr → Bool

/-- OPEN parameter FREQ_PACKET, from the frequency byte to the bytes SET_FREQ sends first (R93; log 6). -/
opaque freqPacket : Byte → List Byte

/-- OPEN parameter BUS_RESET_PACKET, the bytes SET_FREQ sends second (R94; log 6). -/
opaque busResetPacket : List Byte

/-- Free value: what `tx_len` shows for a message of n bytes that its 16 bits cannot count. Only the OPEN
packets of SET_FREQ can be that long (R17, R60; DESIGN CHOICE, log 30). -/
opaque txLenBeyond : Nat → Half

/-- Free value: the receive stream after the n-th reset in mid-operation, about which the spec makes
no claim (R112, D20, I14; log 3). -/
opaque rxAfterReset : Nat → List RxItem

end Config

end Sys2Proof
end

