-- ==== Sys2Proof/Machine/State.lean ====
section
/-! DEFINITION. The state of the block (10_state.md), the records of its four channels, and the reset
state (R31). -/

namespace Sys2Proof.Machine

/-! ## The vocabulary of the state -/

/-- The sequencer's position (R20); the codes 0xB to 0xF have no constructor, as no step enters them. -/
inductive Phase where
  | idle | sendA | waitStatus | delaying | sendB | waitCount | waitPayload
  | done | failed | sendF | sendRst
  deriving DecidableEq, Repr

/-- The request latch L (R21). The descriptor's reserved bits are not latched (R50). -/
structure Latch where
  op    : Byte
  dev   : Byte
  reg   : Byte
  n     : Byte
  delay : Word
  hz    : Word
  plen  : Half
  deriving DecidableEq, Repr

/-- The failure kinds and what each records (R97). -/
inductive BusError where
  | transport (e : TErr)
  | timeout
  | device (k : ErrorKind)
  | protocol
  deriving DecidableEq, Repr

/-- RESULT (R26). -/
inductive Result where
  | ok (len : Byte)
  | err (k : BusError)
  deriving DecidableEq, Repr

/-- The outcome of a send transaction, `tx_status` (R17, R34). -/
inductive SendStatus where
  | ok
  | err (e : TErr)
  deriving DecidableEq, Repr

/-- The outcome of a receive transaction, `rx_status` with `rx_data` (R18, R35). -/
inductive RecvAnswer where
  | ok (bs : List Byte)
  | err (e : TErr)
  deriving DecidableEq, Repr

/-- A completed transport transaction, an entry of the channel trace (92 D2). -/
inductive Transaction where
  | send (m : List Byte) (st : SendStatus)
  | recv (k : Nat) (a : RecvAnswer)
  deriving DecidableEq, Repr

/-- A request on the request channel (R15). -/
structure Request where
  desc    : Desc
  payload : List Byte
  deriving DecidableEq, Repr

/-- What the caller receives at a response transaction (R16, R64). -/
structure Response where
  desc : Word
  terr : Option TErr
  data : List Byte
  deriving DecidableEq, Repr

/-- The completion event (R109). -/
structure CompletionEvent where
  op     : Byte
  result : Result
  sends  : List SendStatus
  deriving DecidableEq, Repr

/-- A codec call of the model: the bytes of one wire tag or segment and how to read them (log 11). -/
structure CodecCall where
  form  : WireForm
  bytes : List Byte
  deriving DecidableEq, Repr

/-! ## The state -/

/-- The spec's state elements (R20 to R27). An element that holds no value is absent (R30, R31, I13;
log 8). -/
structure Block where
  phase  : Phase
  latch  : Option Latch
  pbuf   : Option (List Byte)
  txbuf  : Option (List Byte)
  count  : Option Byte
  rxbuf  : Option (List Byte)
  result : Option Result
  timer  : Option Word
  deriving DecidableEq, Repr

/-- What the outside presents at the block's inputs: the model's own fields (log 1, 2, 7, 11, 15, 21,
29). -/
structure Env where
  /-- steps until each next reset event (R111) -/
  resets   : List Nat
  /-- codec calls not yet run (log 11) -/
  calls    : List CodecCall
  /-- requests the caller presents, in order; `req_valid` is 1 while there is one (R15) -/
  reqs     : List Request
  /-- `req_payload` of the request being taken (R15) -/
  payload  : List Byte
  /-- `rsp_ready` (R16); no step changes it, a choice of the model (DESIGN CHOICE, log 29) -/
  rspReady : Bool
  /-- answers to the sends the block awaits, in order (R17, R34) -/
  tx       : List SendStatus
  /-- the transport's receive stream (R37) -/
  rx       : List RxItem
  /-- for each wait, the TIME_UNITs between the bound and the expiry (R106) -/
  lags     : List Nat
  deriving DecidableEq, Repr

/-- What the outside has observed: the model's own fields (log 18). -/
structure Log where
  /-- transport transactions of the current operation, oldest first -/
  trace     : List Transaction
  /-- responses the caller has received, oldest first -/
  responses : List Response
  /-- completion events emitted, oldest first -/
  events    : List CompletionEvent
  deriving DecidableEq, Repr

/-- The whole machine. `sends` holds the send outcomes of the SET_FREQ in progress (R109; log 17),
`codecOut` the bytes the codec has emitted for codec calls (log 11), `draws` counts the free values
drawn (log 3). -/
structure State where
  block    : Block
  sends    : List SendStatus
  codecOut : List Byte
  draws    : Nat
  env      : Env
  log      : Log
  deriving DecidableEq, Repr

/-! ## Stops -/

/-- The elements that can be absent (R30). -/
inductive Element where
  | latch | pbuf | txbuf | count | rxbuf | result | timer
  deriving DecidableEq, Repr

/-- Why the machine stops. -/
inductive Fault where
  /-- A step reads an element that holds no value, or payload bytes PBUF does not hold. Raised by the
  send, receive, timer and response steps and by WRITE_RAW and WRITE_REG whose `req_payload` is shorter
  than `plen`. The spec calls such a read a fault of the model (R30, I13). Safe. -/
  | absent (e : Element)
  /-- The state is one R91 gives no row for: WAIT_STATUS with an op code that has no status byte.
  Raised by an accepted reply byte. Safe: no run reaches it (log 23). -/
  | noTransition
  deriving DecidableEq, Repr

/-- Why the model gives no next state. -/
inductive Refusal where
  /-- An instruction without a meaning yet. Raised by `exec` alone. Safe. -/
  | notModelled (mnemonic : String)
  /-- The tag ReadRestart, which no builder emits and no rule gives a meaning (R53, I17). Raised by
  `execReadRestart`. Safe. -/
  | neverEmitted
  /-- A segment whose payload cannot be length-prefixed in one byte (R67). Raised by the two write
  segments on ill-formed terms, which the decoder never gives. Safe (log 27). -/
  | unencodable
  /-- A codec call whose bytes are no tag or segment (R52, R54). Raised by `fetch`. Safe (log 28). -/
  | undecodable (e : DecodeError)
  deriving DecidableEq, Repr

/-- The outcome of one step of this machine. -/
abbrev Out := Host.Outcome State Fault Refusal

/-! ## Verdicts -/

/-- `LenCheck` (R67). -/
inductive LenVerdict where
  | pass | protocol
  deriving DecidableEq, Repr

/-- `DecodeStatus` (R74). -/
inductive StatusVerdict where
  | ok | timeout | err (k : ErrorKind)
  deriving DecidableEq, Repr

/-- `DecodeCount` (R75). -/
inductive CountVerdict where
  | count (c : Byte) | timeout | err (k : ErrorKind)
  deriving DecidableEq, Repr

/-- Where a receive stands: not complete yet, complete with its bytes, or failed; with the stream it
leaves (R35, R37). -/
inductive RxTaken where
  | pending
  | ok (bs : List Byte) (rest : List RxItem)
  | err (e : TErr) (rest : List RxItem)
  deriving DecidableEq, Repr

/-- What a state offers to run: a decoded instruction with the state that has it taken from its
channel, a codec call that is no instruction, or nothing. -/
inductive Fetched where
  | instr (i : Instr) (s : State)
  | bad (e : DecodeError)
  | nothing
  deriving DecidableEq, Repr

/-- What reset events do to the coming step: it is the reset, or it is an ordinary step of the state
with the reset one step nearer. -/
inductive ResetDue where
  | now (s : State)
  | later (s : State)
  deriving DecidableEq, Repr

/-! ## Reset -/

/-- The state elements after reset: IDLE, everything else valueless (R31). -/
def Block.reset : Block where
  phase  := .idle
  latch  := none
  pbuf   := none
  txbuf  := none
  count  := none
  rxbuf  := none
  result := none
  timer  := none

/-- Nothing presented at the inputs (R113; DESIGN CHOICE, log 21). -/
def Env.reset : Env where
  resets   := []
  calls    := []
  reqs     := []
  payload  := []
  rspReady := true
  tx       := []
  rx       := []
  lags     := []

/-- Nothing observed yet (log 18). -/
def Log.reset : Log where
  trace     := []
  responses := []
  events    := []

/-- The machine right after reset (R31, R111). -/
def State.reset : State where
  block    := Block.reset
  sends    := []
  codecOut := []
  draws    := 0
  env      := Env.reset
  log      := Log.reset

end Sys2Proof.Machine
end

