-- ==== Sys2Proof/Machine/Flags.lean ====
section
/-! DEFINITION. The block has no flags (R28); what the other hardware's flags do here is done by the
verdicts a step consumes at once: the length check and the classes of a reply byte. -/

namespace Sys2Proof.Machine

/-- `LenCheck(WRITE_RAW, plen)` (R67). -/
def lenCheckRaw (plen : Half) : LenVerdict :=
  if plen.toNat > Config.lenMax then .protocol else .pass

/-- `LenCheck(WRITE_REG, plen)`: the register byte counts (R67). -/
def lenCheckReg (plen : Half) : LenVerdict :=
  if plen.toNat + 1 > Config.lenMax then .protocol else .pass

/-- `DecodeStatus` (R74). -/
def decodeStatus (b : Byte) : StatusVerdict :=
  if b = 0x00#8 then .timeout
  else match errorKindOf b with
    | some k => .err k
    | none   => .ok

/-- `DecodeCount` (R75). -/
def decodeCount (b : Byte) : CountVerdict :=
  if b = 0x00#8 then .timeout
  else match errorKindOf b with
    | some k => .err k
    | none   => .count b

/-- A reply byte that is accepted: neither zero nor in ERRSET (R62). -/
def isAccepted (b : Byte) : Bool := decide (b ≠ 0#8) && (errorKindOf b).isNone

end Sys2Proof.Machine
end

