-- ==== Sys2Proof/Machine/Operands.lean ====
section
/-! DEFINITION. The operand computations: the frequency byte (R57), the latched fields (R21), the
payload read (R22) and the messages of each operation (41, 42). -/

namespace Sys2Proof.Machine

/-- `FreqByte(hz) = (hz div 10000) mod 256` (R57). -/
def freqByte (hz : Word) : Byte := BitVec.ofNat 8 (hz.toNat / 10000)

/-- The latch of a request with op code `op` and descriptor fields `d` (R21, R48). -/
def latchOf (op : Byte) (d : ReqFields) : Latch where
  op := op
  dev := d.dev
  reg := d.reg
  n := d.n
  delay := d.delay
  hz := d.hz
  plen := d.plen

/-- `MemRead(buf, i, n)`: n bytes from index i, none where the buffer does not hold them (R11, R30). -/
def memRead (buf : Option (List Byte)) (i n : Nat) : Option (List Byte) :=
  match buf with
  | some p => if i + n ≤ p.length then some ((p.drop i).take n) else none
  | none   => none

/-- The messages an operation sends, in order, when nothing fails before them (R84 to R87, R92). -/
def plannedSends (l : Latch) (payload : List Byte) : List (List Byte) :=
  if l.op = 0x00#8 then [buildWrite l.dev payload]
  else if l.op = 0x01#8 then [buildReadRequest l.dev l.n]
  else if l.op = 0x02#8 then [buildWriteRegister l.dev l.reg payload]
  else if l.op = 0x03#8 then
    if l.delay = 0#32 then [buildCombined l.dev l.reg l.n]
    else [buildWriteRestart l.dev l.reg, buildReadFollow l.n]
  else if l.op = 0x04#8 then [Config.freqPacket (freqByte l.hz), Config.busResetPacket]
  else []

end Sys2Proof.Machine
end

