-- ==== Sys2Proof/Machine/Ops.lean ====
section
/-! DEFINITION. The named operations over the state: latching a request, starting a send, receiving,
entering and leaving a failure, retiring an operation, emitting codec bytes, reset. -/

namespace Sys2Proof.Machine

/-! ## Failure entry and return -/

/-- `raise BusError.k` (R102): RESULT is written, the phase is FAILED, nothing else is saved. -/
def State.raise (k : BusError) (s : State) : State :=
  { s with block.result := some (.err k), block.phase := .failed }

/-- `respond OK` with `len` data bytes (R11, R91). -/
def State.respondOk (len : Byte) (s : State) : State :=
  { s with block.result := some (.ok len), block.phase := .done }

/-- `SendFail(e)` (R81). -/
def State.sendFail (e : TErr) (s : State) : State := s.raise (.transport e)

/-- The failure of a receive that returned `ERR(e)` (R81, R98). -/
def recvError (e : TErr) : BusError := if Config.isTimeout e then .timeout else .transport e

/-- `RxFail(e)` (R81). -/
def State.rxFail (e : TErr) (s : State) : State := s.raise (recvError e)

/-! ## The request step -/

/-- Latching (R79, R21, R22): L takes the descriptor's fields, PBUF the payload's `plen` bytes
(log 9, log 26); a new operation begins, with no transactions and no SET_FREQ outcomes. -/
def State.latchRequest (op : Byte) (d : ReqFields) (s : State) : State :=
  { s with
    block.latch := some (latchOf op d)
    block.pbuf := some (s.env.payload.take d.plen.toNat)
    sends := []
    log.trace := [] }

/-- A request presented in a busy phase is not accepted: it waits at the channel (R14, R15, I19; log 10). -/
def State.holdRequest (op : Byte) (d : ReqFields) (s : State) : State :=
  { s with env.reqs := { desc := packDesc op d, payload := s.env.payload } :: s.env.reqs }

/-- Entry to a sending phase with its message in TXBUF (R23, R91). -/
def State.startSend (p : Phase) (m : List Byte) (s : State) : State :=
  { s with block.txbuf := some m, block.phase := p }

/-- Moving to a phase that writes no element (R20). -/
def State.toPhase (p : Phase) (s : State) : State := { s with block.phase := p }

/-- The request step of the reserved op codes: accepted, no transaction, PROTOCOL (R96). -/
def State.rejectReserved (op : Byte) (d : ReqFields) (s : State) : Out :=
  if s.block.phase = .idle then .next ((s.latchRequest op d).raise .protocol)
  else .next (s.holdRequest op d)

/-! ## Transport transactions -/

/-- A completed transaction enters the trace (log 18). -/
def State.record (t : Transaction) (s : State) : State :=
  { s with log.trace := s.log.trace ++ [t] }

/-- `Receive(k)` on the stream (R35, R37, R42): all k bytes, or an error and no byte taken, or not
complete yet. -/
def receive : Nat → List RxItem → RxTaken
  | 0, rx                   => .ok [] rx
  | _ + 1, []               => .pending
  | _ + 1, .fail e :: rest  => .err e rest
  | k + 1, .byte b :: rest  =>
    match receive k rest with
    | .pending     => .pending
    | .ok bs left  => .ok (b :: bs) left
    | .err e left  => .err e (.byte b :: left)

/-- Taking what a receive took off the stream. -/
def State.setRx (rx : List RxItem) (s : State) : State := { s with env.rx := rx }

/-- A reply byte that completes no classified receive stays in the stream (R37; log 14). -/
def State.unreadByte (b : Byte) (s : State) : State :=
  { s with env.rx := .byte b :: s.env.rx }

/-- Taking the transport's answer to the send in progress. -/
def State.popTx (s : State) : State := { s with env.tx := s.env.tx.tail }

/-- The completion of the send in progress (R17): none yet, or its outcome with the transaction
recorded, which `k` acts on (log 16). -/
def State.onSendDone (k : SendStatus → State → Out) (s : State) : Out :=
  match s.env.tx with
  | []      => .next s
  | st :: _ =>
    match s.block.txbuf with
    | none   => .fault (.absent .txbuf)
    | some m => k st (s.popTx.record (.send m st))

/-! ## The status and count steps -/

/-- The step after an accepted status byte (R91 rows 14 to 16). -/
def State.afterStatus (s : State) : Out :=
  match s.block.latch with
  | none   => .fault (.absent .latch)
  | some l =>
    if l.op = 0x00#8 ∨ l.op = 0x02#8 then .next (s.respondOk 0#8)
    else if l.op = 0x03#8 then
      if l.delay = 0#32 then .next (s.toPhase .waitCount)
      else .next { s with block.timer := some l.delay, block.phase := .delaying }
    else .fault .noTransition

/-- The status byte has arrived (R82, R91 rows 12 to 16). -/
def State.statusStep (b : Byte) (s : State) : Out :=
  let t := s.record (.recv 1 (.ok [b]))
  match decodeStatus b with
  | .timeout => .next (t.raise .timeout)
  | .err k   => .next (t.raise (.device k))
  | .ok      => t.afterStatus

/-- The count byte has arrived (R83, R91 rows 21 to 23). -/
def State.countStep (b : Byte) (s : State) : Out :=
  let t := s.record (.recv 1 (.ok [b]))
  match decodeCount b with
  | .timeout => .next (t.raise .timeout)
  | .err k   => .next (t.raise (.device k))
  | .count c => .next { t with block.count := some c, block.phase := .waitPayload }

/-- A reply byte: it completes the outstanding `Receive(1)` of WAIT_STATUS or WAIT_COUNT; in every
other phase it stays in the stream (R37, R76; log 14). -/
def State.replyStep (b : Byte) (s : State) : Out :=
  match s.block.phase with
  | .waitStatus => s.statusStep b
  | .waitCount  => s.countStep b
  | .idle | .sendA | .delaying | .sendB | .waitPayload | .done | .failed | .sendF | .sendRst =>
    .next (s.unreadByte b)

/-! ## The codec -/

/-- The codec emits bytes (R66, R68 to R72; log 11). -/
def State.emit (bs : List Byte) (s : State) : State :=
  { s with codecOut := s.codecOut ++ bs }

/-! ## The response -/

/-- `rsp_desc` of a result (R64). -/
def rspDescOf : Result → Word
  | .ok len               => 0#8 ++ 0#8 ++ len ++ 0#2 ++ 0#3 ++ 0#3
  | .err (.transport _)   => 0#8 ++ 0#8 ++ 0#8 ++ 0#2 ++ 0#3 ++ 1#3
  | .err .timeout         => 0#8 ++ 0#8 ++ 0#8 ++ 0#2 ++ 0#3 ++ 2#3
  | .err (.device k)      => 0#8 ++ errByte k ++ 0#8 ++ 0#2 ++ errCode k ++ 3#3
  | .err .protocol        => 0#8 ++ 0#8 ++ 0#8 ++ 0#2 ++ 0#3 ++ 4#3

/-- `rsp_terr` of a result, meaningful only for TRANSPORT (R16). -/
def rspTerrOf : Result → Option TErr
  | .err (.transport e) => some e
  | .ok _ | .err .timeout | .err (.device _) | .err .protocol => none

/-- `rsp_data` of a result: the first `len` bytes of RXBUF when OK, else empty (R16, R25). -/
def rspDataOf (rxbuf : Option (List Byte)) : Result → Option (List Byte)
  | .ok len => if len = 0#8 then some [] else memRead rxbuf 0 len.toNat
  | .err _  => some []

/-- The response step's effect (R80, R109): the response reaches the caller, the completion event is
emitted, every transient element becomes valueless, the phase is IDLE. -/
def State.retire (l : Latch) (r : Result) (data : List Byte) (s : State) : State :=
  { s with
    block := Block.reset
    sends := []
    log.responses := s.log.responses ++ [{ desc := rspDescOf r, terr := rspTerrOf r, data := data }]
    log.events := s.log.events ++
      [{ op := l.op, result := r, sends := if l.op = 0x04#8 then s.sends else [] }] }

/-! ## Reset -/

/-- The phases of an operation in progress (R112). -/
def Phase.midOperation : Phase → Bool
  | .idle | .done | .failed => false
  | .sendA | .waitStatus | .delaying | .sendB | .waitCount | .waitPayload | .sendF | .sendRst => true

/-- The phases with a send outstanding (R17). -/
def Phase.sending : Phase → Bool
  | .sendA | .sendB | .sendF | .sendRst => true
  | .idle | .waitStatus | .delaying | .waitCount | .waitPayload | .done | .failed => false

/-- The phases with a receive outstanding (R18). -/
def Phase.receiving : Phase → Bool
  | .waitStatus | .waitCount | .waitPayload => true
  | .idle | .sendA | .delaying | .sendB | .done | .failed | .sendF | .sendRst => false

/-- The reset event (R111, R112): every element at its reset value, no response, no event. The
completion of an outstanding send is ignored (log 4). Reset does not reach the transport, and after a
reset in mid-operation the spec makes no claim about the stream: a free value (log 3). -/
def State.resetStep (s : State) : State :=
  { s with
    block := Block.reset
    sends := []
    codecOut := []
    log.trace := []
    draws := if s.block.phase.midOperation then s.draws + 1 else s.draws
    env.tx := if s.block.phase.sending then s.env.tx.tail else s.env.tx
    env.rx := if s.block.phase.midOperation then Config.rxAfterReset s.draws else s.env.rx }

end Sys2Proof.Machine
end

