-- ==== Sys2Proof/Machine/Reply.lean ====
section
/-! DEFINITION. The reply rows of the opcode table: the status step (R82) in WAIT_STATUS, the count
step (R83) in WAIT_COUNT, for each class of reply byte (R62, R74, R75). -/

namespace Sys2Proof.Machine

/-- REPLY_ZERO: Timeout (rows 12 and 21). -/
def execReplyZero (s : State) : Out := s.replyStep 0x00#8

/-- ERR_None, `'N'`: Device(None) (rows 13 and 22). -/
def execErrNone (s : State) : Out := s.replyStep (errByte .none)

/-- ERR_Unescape, `'U'`: Device(Unescape) (rows 13 and 22). -/
def execErrUnescape (s : State) : Out := s.replyStep (errByte .unescape)

/-- ERR_Length, `'L'`: Device(Length) (rows 13 and 22). -/
def execErrLength (s : State) : Out := s.replyStep (errByte .length)

/-- ERR_Read, `'R'`: Device(Read) (rows 13 and 22). -/
def execErrRead (s : State) : Out := s.replyStep (errByte .read)

/-- ERR_WriteData, `'W'`: Device(WriteData) (rows 13 and 22). -/
def execErrWriteData (s : State) : Out := s.replyStep (errByte .writeData)

/-- ERR_SendData, `'S'`: Device(SendData) (rows 13 and 22). -/
def execErrSendData (s : State) : Out := s.replyStep (errByte .sendData)

/-- REPLY_ACCEPT: the acknowledgment, or the count (rows 14 to 16 and 23). -/
def execReplyAccept (b : Byte) (s : State) : Out := s.replyStep b

end Sys2Proof.Machine
end

