-- ==== Sys2Proof/Machine/Request.lean ====
section
/-! DEFINITION. The request rows of the opcode table: the request step of each operation (R79, rows 1
to 8 of R91). Each acts in IDLE; in a busy phase the request waits (R14, I19). -/

namespace Sys2Proof.Machine

/-- WRITE_RAW (R84; rows 1 and 2). -/
def execWriteRaw (d : ReqFields) (s : State) : Out :=
  if s.block.phase = .idle then
    let t := s.latchRequest 0x00#8 d
    match lenCheckRaw d.plen with
    | .protocol => .next (t.raise .protocol)
    | .pass =>
      match memRead t.block.pbuf 0 d.plen.toNat with
      | none   => .fault (.absent .pbuf)
      | some p => .next (t.startSend .sendA (buildWrite d.dev p))
  else .next (s.holdRequest 0x00#8 d)

/-- READ_RAW (R85; row 4). -/
def execReadRaw (d : ReqFields) (s : State) : Out :=
  if s.block.phase = .idle then
    .next ((s.latchRequest 0x01#8 d).startSend .sendA (buildReadRequest d.dev d.n))
  else .next (s.holdRequest 0x01#8 d)

/-- WRITE_REG (R86; rows 1 and 3). -/
def execWriteReg (d : ReqFields) (s : State) : Out :=
  if s.block.phase = .idle then
    let t := s.latchRequest 0x02#8 d
    match lenCheckReg d.plen with
    | .protocol => .next (t.raise .protocol)
    | .pass =>
      match memRead t.block.pbuf 0 d.plen.toNat with
      | none   => .fault (.absent .pbuf)
      | some p => .next (t.startSend .sendA (buildWriteRegister d.dev d.reg p))
  else .next (s.holdRequest 0x02#8 d)

/-- READ_REG (R87; rows 5 and 6): the combined packet when the delay is zero, the write-restart alone
otherwise. -/
def execReadReg (d : ReqFields) (s : State) : Out :=
  if s.block.phase = .idle then
    let t := s.latchRequest 0x03#8 d
    if d.delay = 0#32 then .next (t.startSend .sendA (buildCombined d.dev d.reg d.n))
    else .next (t.startSend .sendA (buildWriteRestart d.dev d.reg))
  else .next (s.holdRequest 0x03#8 d)

/-- SET_FREQ (R92; row 7). -/
def execSetFreq (d : ReqFields) (s : State) : Out :=
  if s.block.phase = .idle then
    .next ((s.latchRequest 0x04#8 d).startSend .sendF (Config.freqPacket (freqByte d.hz)))
  else .next (s.holdRequest 0x04#8 d)

/-- Reserved op code 0x05 (R96; row 8). -/
def execReserved05 (d : ReqFields) (s : State) : Out :=
  s.rejectReserved (Instr.opCode (.reserved05 d)) d

/-- Reserved op codes 0x06 and 0x07 (R96; row 8). -/
def execReserved06 (lo : BitVec 1) (d : ReqFields) (s : State) : Out :=
  s.rejectReserved (Instr.opCode (.reserved06 lo d)) d

/-- Reserved op codes 0x08 to 0x0F (R96; row 8). -/
def execReserved08 (lo : BitVec 3) (d : ReqFields) (s : State) : Out :=
  s.rejectReserved (Instr.opCode (.reserved08 lo d)) d

/-- Reserved op codes 0x10 to 0x1F (R96; row 8). -/
def execReserved10 (lo : BitVec 4) (d : ReqFields) (s : State) : Out :=
  s.rejectReserved (Instr.opCode (.reserved10 lo d)) d

/-- Reserved op codes 0x20 to 0x3F (R96; row 8). -/
def execReserved20 (lo : BitVec 5) (d : ReqFields) (s : State) : Out :=
  s.rejectReserved (Instr.opCode (.reserved20 lo d)) d

/-- Reserved op codes 0x40 to 0x7F (R96; row 8). -/
def execReserved40 (lo : BitVec 6) (d : ReqFields) (s : State) : Out :=
  s.rejectReserved (Instr.opCode (.reserved40 lo d)) d

/-- Reserved op codes 0x80 to 0xFF (R96; row 8). -/
def execReserved80 (lo : BitVec 7) (d : ReqFields) (s : State) : Out :=
  s.rejectReserved (Instr.opCode (.reserved80 lo d)) d

end Sys2Proof.Machine
end

