-- ==== Sys2Proof/Machine/Wire.lean ====
section
/-! DEFINITION. The wire rows of the opcode table: what the codec emits for a tag (R51, R52) and for a
segment (R55, R68 to R72). The request steps build their messages from the same serializers. -/

namespace Sys2Proof.Machine

/-! ## Tags -/

/-- ID, the packet-kind byte (R51). -/
def execPacketKind (s : State) : Out := .next (s.emit [idByte])

/-- SetAddress: the tag, then the device address (R52). -/
def execSetAddress (dev : Byte) (s : State) : Out := .next (s.emit [tagByte .setAddress, dev])

/-- SetLength: the tag, then the length (R52). -/
def execSetLength (len : Byte) (s : State) : Out := .next (s.emit [tagByte .setLength, len])

/-- SetFrequency: the tag; where it stands in FREQ_PACKET is OPEN (R52, R93; log 13). -/
def execSetFrequency (s : State) : Out := .next (s.emit [tagByte .setFrequency])

/-- Write: the tag (R52). -/
def execWrite (s : State) : Out := .next (s.emit [tagByte .write])

/-- WriteRestart: the tag (R52). -/
def execWriteRestart (s : State) : Out := .next (s.emit [tagByte .writeRestart])

/-- Read: the tag (R52). -/
def execRead (s : State) : Out := .next (s.emit [tagByte .read])

/-- ReadRestart: reserved on the send side, never emitted (R53, I17; log 12). -/
def execReadRestart (_ : State) : Out := .refused .neverEmitted

/-! ## Segments -/

/-- SEG_RAW_WRITE (R68). -/
def execSegRawWrite (dev : Byte) (payload : List Byte) (s : State) : Out :=
  if payload.length ≤ 255 then .next (s.emit (buildWrite dev payload)) else .refused .unencodable

/-- SEG_REG_WRITE (R69). -/
def execSegRegWrite (dev reg : Byte) (payload : List Byte) (s : State) : Out :=
  if payload.length ≤ 254 then .next (s.emit (buildWriteRegister dev reg payload))
  else .refused .unencodable

/-- SEG_ADDR_READ (R70). -/
def execSegAddrRead (dev n : Byte) (s : State) : Out := .next (s.emit (buildReadRequest dev n))

/-- SEG_WRITE_RESTART (R71). -/
def execSegWriteRestart (dev reg : Byte) (s : State) : Out :=
  .next (s.emit (buildWriteRestart dev reg))

/-- SEG_READ_FOLLOW (R72). -/
def execSegReadFollow (n : Byte) (s : State) : Out := .next (s.emit (buildReadFollow n))

end Sys2Proof.Machine
end

