-- ==== Sys2Proof/Machine/Dispatch.lean ====
section
/-! DEFINITION. The dispatch: one arm per row of the opcode table. -/

namespace Sys2Proof.Machine

def exec (i : Instr) (s : State) : Host.Outcome State Fault Refusal :=
  match i with
  | .writeRaw d => Sys2Proof.Machine.execWriteRaw d s
  | .readRaw d => Sys2Proof.Machine.execReadRaw d s
  | .writeReg d => Sys2Proof.Machine.execWriteReg d s
  | .readReg d => Sys2Proof.Machine.execReadReg d s
  | .setFreq d => Sys2Proof.Machine.execSetFreq d s
  | .reserved05 d => Sys2Proof.Machine.execReserved05 d s
  | .reserved06 lo d => Sys2Proof.Machine.execReserved06 lo d s
  | .reserved08 lo d => Sys2Proof.Machine.execReserved08 lo d s
  | .reserved10 lo d => Sys2Proof.Machine.execReserved10 lo d s
  | .reserved20 lo d => Sys2Proof.Machine.execReserved20 lo d s
  | .reserved40 lo d => Sys2Proof.Machine.execReserved40 lo d s
  | .reserved80 lo d => Sys2Proof.Machine.execReserved80 lo d s
  | .packetKind => Sys2Proof.Machine.execPacketKind s
  | .setAddress dev => Sys2Proof.Machine.execSetAddress dev s
  | .setLength len => Sys2Proof.Machine.execSetLength len s
  | .setFrequency => Sys2Proof.Machine.execSetFrequency s
  | .write => Sys2Proof.Machine.execWrite s
  | .writeRestart => Sys2Proof.Machine.execWriteRestart s
  | .read => Sys2Proof.Machine.execRead s
  | .readRestart => Sys2Proof.Machine.execReadRestart s
  | .segRawWrite dev payload => Sys2Proof.Machine.execSegRawWrite dev payload s
  | .segRegWrite dev reg payload => Sys2Proof.Machine.execSegRegWrite dev reg payload s
  | .segAddrRead dev n => Sys2Proof.Machine.execSegAddrRead dev n s
  | .segWriteRestart dev reg => Sys2Proof.Machine.execSegWriteRestart dev reg s
  | .segReadFollow n => Sys2Proof.Machine.execSegReadFollow n s
  | .replyZero => Sys2Proof.Machine.execReplyZero s
  | .errNone => Sys2Proof.Machine.execErrNone s
  | .errUnescape => Sys2Proof.Machine.execErrUnescape s
  | .errLength => Sys2Proof.Machine.execErrLength s
  | .errRead => Sys2Proof.Machine.execErrRead s
  | .errWriteData => Sys2Proof.Machine.execErrWriteData s
  | .errSendData => Sys2Proof.Machine.execErrSendData s
  | .replyAccept b => Sys2Proof.Machine.execReplyAccept b s

end Sys2Proof.Machine
end

