-- ==== Sys2Proof/Machine/Fetch.lean ====
section
/-! DEFINITION. Where the next instruction comes from: the codec call queue (log 11), the request
channel in IDLE (R15), the receive stream in WAIT_STATUS and WAIT_COUNT (R18); and how a reset event
comes due (R111; log 15). -/

namespace Sys2Proof.Machine

/-- A codec call is one wire item; the item taken from the queue. -/
def State.fetchCall (c : CodecCall) (s : State) : Fetched :=
  match decodeWire c.form c.bytes with
  | .ok (i, _) => .instr i { s with env.calls := s.env.calls.tail }
  | .error e   => .bad e

/-- The request the caller presents, its payload on `req_payload` (R15). -/
def State.fetchRequest (s : State) : Fetched :=
  match s.env.reqs with
  | []        => .nothing
  | r :: rest => .instr (decodeDesc r.desc) { s with env.reqs := rest, env.payload := r.payload }

/-- The byte that completes `Receive(1)`, off the stream (R35, R62). -/
def State.fetchReply (s : State) : Fetched :=
  match receive 1 s.env.rx with
  | .ok [b] rest => .instr (decodeReplyByte b) (s.setRx rest)
  | .ok _ _      => .nothing
  | .err _ _     => .nothing
  | .pending     => .nothing

/-- The next instruction of a state, if it has one. -/
def State.fetch (s : State) : Fetched :=
  match s.env.calls with
  | c :: _ => s.fetchCall c
  | [] =>
    match s.block.phase with
    | .idle => s.fetchRequest
    | .waitStatus | .waitCount => s.fetchReply
    | .sendA | .delaying | .sendB | .waitPayload | .done | .failed | .sendF | .sendRst => .nothing

/-- Whether the coming step is a reset (R111). -/
def State.resetDue (s : State) : ResetDue :=
  match s.env.resets with
  | []              => .later s
  | 0 :: rest       => .now { s with env.resets := rest }
  | (k + 1) :: rest => .later { s with env.resets := k :: rest }

/-- A machine waiting for the status byte of an empty WRITE_RAW to device 0: where a reply byte is
placed when the machine waits for none. -/
def Block.awaitingStatus : Block :=
  { Block.reset with
    phase := .waitStatus
    latch := some (latchOf 0x00#8 ⟨0, 0, 0, 0, 0, 0, 0⟩)
    pbuf := some []
    txbuf := some (buildWrite 0#8 []) }

/-- A request placed at the head of the request channel of an idle block, with `plen` zero bytes of
payload. -/
def State.placeRequest (v : Desc) (s : State) : State :=
  { s with
    block := if s.block.phase = .idle then s.block else Block.reset
    env.reqs := ⟨v, List.replicate (descFields v).plen.toNat 0#8⟩ :: s.env.reqs
    env.calls := []
    env.resets := [] }

/-- A reply byte placed at the head of the receive stream of a block that waits for one. -/
def State.placeReply (b : Byte) (s : State) : State :=
  { s with
    block := if s.block.phase = .waitStatus ∨ s.block.phase = .waitCount then s.block
      else Block.awaitingStatus
    env.rx := .byte b :: s.env.rx
    env.calls := []
    env.resets := [] }

/-- A codec call placed at the head of the queue. -/
def State.placeCall (c : CodecCall) (s : State) : State :=
  { s with env.calls := c :: s.env.calls, env.resets := [] }

/-- A word of the opcode table placed where the next step fetches it. -/
def State.placeWord (s : State) (nbits w : Nat) : State :=
  match tableForm nbits w with
  | none               => s
  | some (.request, bs) => s.placeRequest (descOfBytes bs)
  | some (.wire f, bs)  => s.placeCall ⟨f, bs⟩
  | some (.reply, bs)   => s.placeReply (bs.headD 0#8)

end Sys2Proof.Machine
end

