-- ==== Sys2Proof/Machine/Sequencer.lean ====
section
/-! DEFINITION. The steps no word of the opcode table triggers: completions of sends and of failed or
payload receives, the delay timer, the response (rows 9 to 11, 17 to 20 and 24 to 28 of R91). A phase
whose event has not come takes no step: the state stays. -/

namespace Sys2Proof.Machine

/-- SEND_A: rows 9 and 10. -/
def State.sendADone (s : State) : Out :=
  s.onSendDone fun st t =>
    match st with
    | .err e => .next (t.sendFail e)
    | .ok =>
      match t.block.latch with
      | none   => .fault (.absent .latch)
      | some l => .next (t.toPhase (if l.op = 0x01#8 then .waitCount else .waitStatus))

/-- SEND_B: rows 18 and 19. -/
def State.sendBDone (s : State) : Out :=
  s.onSendDone fun st t =>
    match st with
    | .err e => .next (t.sendFail e)
    | .ok    => .next (t.toPhase .waitCount)

/-- SEND_F: row 26; the outcome is kept for the completion event only (R92, R95). -/
def State.sendFDone (s : State) : Out :=
  s.onSendDone fun st t =>
    .next ({ t with sends := t.sends ++ [st] }.startSend .sendRst Config.busResetPacket)

/-- SEND_RST: row 27. -/
def State.sendRstDone (s : State) : Out :=
  s.onSendDone fun st t => .next ({ t with sends := t.sends ++ [st] }.respondOk 0#8)

/-- WAIT_STATUS and WAIT_COUNT without a reply byte: a failed receive (rows 11 and 20), or none yet. -/
def State.recvByteFails (s : State) : Out :=
  match receive 1 s.env.rx with
  | .err e rest => .next (((s.setRx rest).record (.recv 1 (.err e))).rxFail e)
  | .pending    => .next s
  | .ok _ _     => .next s

/-- WAIT_PAYLOAD: rows 24 and 25; the data bytes are not classified (R76). -/
def State.payloadStep (s : State) : Out :=
  match s.block.count with
  | none   => .fault (.absent .count)
  | some c =>
    match receive c.toNat s.env.rx with
    | .pending    => .next s
    | .err e rest => .next (((s.setRx rest).record (.recv c.toNat (.err e))).rxFail e)
    | .ok bs rest =>
      .next (({ s.setRx rest with block.rxbuf := some bs }.record
        (.recv c.toNat (.ok bs))).respondOk c)

/-- The timer expiry: row 17. TIMER holds no value outside DELAYING (I13; log 24). -/
def State.timerExpiry (s : State) : Out :=
  match s.block.latch with
  | none   => .fault (.absent .latch)
  | some l => .next ({ s with block.timer := none }.startSend .sendB (buildReadFollow l.n))

/-- DELAYING (R27, R106): TIMER counts one TIME_UNIT down; at zero the expiry may come at once or
after any further number of TIME_UNITs (log 7). -/
def State.delayStep (s : State) : Out :=
  match s.block.timer with
  | none   => .fault (.absent .timer)
  | some t =>
    if t ≠ 0#32 then .next { s with block.timer := some (t - 1#32) }
    else
      match s.env.lags with
      | []              => .next s
      | 0 :: rest       => { s with env.lags := rest }.timerExpiry
      | (k + 1) :: rest => .next { s with env.lags := k :: rest }

/-- DONE and FAILED: row 28 (R80, R103), when the caller takes the response. -/
def State.responseStep (s : State) : Out :=
  if s.env.rspReady then
    match s.block.result, s.block.latch with
    | some r, some l =>
      match rspDataOf s.block.rxbuf r with
      | some data => .next (s.retire l r data)
      | none      => .fault (.absent .rxbuf)
    | none, _      => .fault (.absent .result)
    | some _, none => .fault (.absent .latch)
  else .next s

/-- The step of the agent the phase waits for, when no instruction has been fetched. -/
def State.agentStep (s : State) : Out :=
  match s.block.phase with
  | .idle        => .next s
  | .sendA       => s.sendADone
  | .waitStatus  => s.recvByteFails
  | .delaying    => s.delayStep
  | .sendB       => s.sendBDone
  | .waitCount   => s.recvByteFails
  | .waitPayload => s.payloadStep
  | .done        => s.responseStep
  | .failed      => s.responseStep
  | .sendF       => s.sendFDone
  | .sendRst     => s.sendRstDone

end Sys2Proof.Machine
end

