-- ==== Sys2Proof/Machine/Step.lean ====
section
/-! DEFINITION. One step: the reset event if it is due, else the instruction the state offers, else the
step of the agent the phase waits for. -/

namespace Sys2Proof.Machine

/-- An ordinary step: fetch and execute, or let the agent move. -/
def State.work (s : State) : Out :=
  match s.fetch with
  | .instr i t => exec i t
  | .bad e     => .refused (.undecodable e)
  | .nothing   => s.agentStep

/-- One step of the machine. -/
def step (s : State) : Host.Outcome State Fault Refusal :=
  match s.resetDue with
  | .now t   => .next t.resetStep
  | .later t => t.work

/-- The state with a word of the opcode table where its next step fetches (log 19, log 20). -/
def State.withFetchWord (s : State) (nbits w : Nat) : State := s.placeWord nbits w

end Sys2Proof.Machine
end

