-- ==== Sys2Proof/Machine/Outputs.lean ====
section
/-! DEFINITION. The output signals of the four channels and the status output (R15 to R19): functions
of the state elements. -/

namespace Sys2Proof.Machine

/-- The encoding of a phase (R20). -/
def Phase.code : Phase → BitVec 4
  | .idle        => 0x0#4
  | .sendA       => 0x1#4
  | .waitStatus  => 0x2#4
  | .delaying    => 0x3#4
  | .sendB       => 0x4#4
  | .waitCount   => 0x5#4
  | .waitPayload => 0x6#4
  | .done        => 0x7#4
  | .failed      => 0x8#4
  | .sendF       => 0x9#4
  | .sendRst     => 0xA#4

/-- `status[7:0]`: bits 7 to 5 zero, bit 4 BUSY, bits 3 to 0 the phase (R19). -/
def Block.status (b : Block) : Byte :=
  0#3 ++ BitVec.ofBool (decide (b.phase ≠ .idle)) ++ b.phase.code

/-- `req_ready` (R15). -/
def Block.reqReady (b : Block) : Bool := decide (b.phase = .idle)

/-- `rsp_valid` (R16). -/
def Block.rspValid (b : Block) : Bool := decide (b.phase = .done) || decide (b.phase = .failed)

/-- `tx_valid` (R17). -/
def Block.txValid (b : Block) : Bool := b.phase.sending

/-- `tx_data`: TXBUF while a send is outstanding (R17). -/
def Block.txData (b : Block) : Option (List Byte) := if b.txValid then b.txbuf else none

/-- The length of a message on `tx_len` (R17, R23); a free value where 16 bits cannot count it (DESIGN
CHOICE, log 30). -/
def txLenOf (m : List Byte) : Half :=
  if m.length < 2 ^ 16 then BitVec.ofNat 16 m.length else Config.txLenBeyond m.length

/-- `tx_len` (R17, R23). -/
def Block.txLen (b : Block) : Option Half := b.txData.map txLenOf

/-- `rx_req_valid` (R18). -/
def Block.rxReqValid (b : Block) : Bool := b.phase.receiving

/-- `rx_count`: 1 for the status and count bytes, COUNT for the payload (R18, R91). -/
def Block.rxCount (b : Block) : Option Byte :=
  match b.phase with
  | .waitStatus | .waitCount => some 1#8
  | .waitPayload             => b.count
  | .idle | .sendA | .delaying | .sendB | .done | .failed | .sendF | .sendRst => none

/-- `rsp_desc` while a response is valid (R16, R64). -/
def Block.rspDesc (b : Block) : Option Word := if b.rspValid then b.result.map rspDescOf else none

/-- `rsp_terr` while a response is valid (R16). -/
def Block.rspTerr (b : Block) : Option TErr := if b.rspValid then b.result.bind rspTerrOf else none

/-- `rsp_data` while a response is valid (R16). -/
def Block.rspData (b : Block) : Option (List Byte) :=
  if b.rspValid then b.result.bind (rspDataOf b.rxbuf) else none

end Sys2Proof.Machine
end

