-- ==== Sys2Proof/Safety.lean ====
section
/-! DEFINITION. What claims about runs are stated in: which elements hold a value in which phase, what
the transport has been sent so far, which event a state offers, and the transition table of R91 as a
relation. -/

namespace Sys2Proof.Machine

/-! ## Consistent states -/

/-- The op codes whose answer opens with a status byte (R82). -/
def Latch.hasStatus (l : Latch) : Prop := l.op = 0x00#8 ∨ l.op = 0x02#8 ∨ l.op = 0x03#8

/-- The op codes that read data (R83). -/
def Latch.hasData (l : Latch) : Prop := l.op = 0x01#8 ∨ l.op = 0x03#8

/-- The positive-delay path of READ_REG (R87). -/
def Latch.delayed (l : Latch) : Prop := l.op = 0x03#8 ∧ l.delay ≠ 0#32

/-- The request is one the block refuses at the request step (R50, R67, R96). -/
def Latch.rejected (l : Latch) : Prop :=
  4 < l.op.toNat ∨ (l.op = 0x00#8 ∧ 255 < l.plen.toNat) ∨ (l.op = 0x02#8 ∧ 254 < l.plen.toNat)

/-- The latched request and payload of an operation that is being carried out: it was not refused, and
a write's PBUF holds its `plen` bytes (R22, R67). -/
structure Accepted (l : Latch) (p : List Byte) : Prop where
  notRejected : ¬ l.rejected
  pbufFits    : p.length ≤ l.plen.toNat
  writeFull   : l.op = 0x00#8 ∨ l.op = 0x02#8 → p.length = l.plen.toNat

/-- The elements that hold no value in the middle of an operation, before any data (R24 to R27). -/
structure Block.NoReply (b : Block) : Prop where
  rxbuf  : b.rxbuf = none
  result : b.result = none

/-- Which elements hold a value in which phase, and which values (R20 to R30, I13). -/
def Block.Consistent (b : Block) : Prop :=
  match b.phase with
  | .idle => b = Block.reset
  | .sendA => b.NoReply ∧ b.count = none ∧ b.timer = none ∧ ∃ l p, b.latch = some l ∧
      b.pbuf = some p ∧ Accepted l p ∧ l.op ≠ 0x04#8 ∧ b.txbuf = (plannedSends l p)[0]?
  | .waitStatus => b.NoReply ∧ b.count = none ∧ b.timer = none ∧ ∃ l p, b.latch = some l ∧
      b.pbuf = some p ∧ Accepted l p ∧ l.hasStatus ∧ b.txbuf = (plannedSends l p)[0]?
  | .delaying => b.NoReply ∧ b.count = none ∧ ∃ l p t, b.latch = some l ∧
      b.pbuf = some p ∧ Accepted l p ∧ l.delayed ∧ b.txbuf = (plannedSends l p)[0]? ∧
      b.timer = some t ∧ t ≤ l.delay
  | .sendB => b.NoReply ∧ b.count = none ∧ b.timer = none ∧ ∃ l p, b.latch = some l ∧
      b.pbuf = some p ∧ Accepted l p ∧ l.delayed ∧ b.txbuf = (plannedSends l p)[1]?
  | .waitCount => b.NoReply ∧ b.count = none ∧ b.timer = none ∧ ∃ l p, b.latch = some l ∧
      b.pbuf = some p ∧ Accepted l p ∧ l.hasData ∧ b.txbuf = (plannedSends l p).getLast?
  | .waitPayload => b.NoReply ∧ b.timer = none ∧ ∃ l p c, b.latch = some l ∧
      b.pbuf = some p ∧ Accepted l p ∧ l.hasData ∧ b.txbuf = (plannedSends l p).getLast? ∧
      b.count = some c ∧ isAccepted c = true
  | .sendF => b.NoReply ∧ b.count = none ∧ b.timer = none ∧ ∃ l p, b.latch = some l ∧
      b.pbuf = some p ∧ Accepted l p ∧ l.op = 0x04#8 ∧ b.txbuf = (plannedSends l p)[0]?
  | .sendRst => b.NoReply ∧ b.count = none ∧ b.timer = none ∧ ∃ l p, b.latch = some l ∧
      b.pbuf = some p ∧ Accepted l p ∧ l.op = 0x04#8 ∧ b.txbuf = (plannedSends l p)[1]?
  | .done => b.timer = none ∧ ∃ l p len, b.latch = some l ∧ b.pbuf = some p ∧ Accepted l p ∧
      b.result = some (.ok len) ∧
      ((¬ l.hasData ∧ len = 0#8 ∧ b.count = none ∧ b.rxbuf = none) ∨
       (l.hasData ∧ isAccepted len = true ∧ b.count = some len ∧
        ∃ d, b.rxbuf = some d ∧ d.length = len.toNat))
  | .failed => b.timer = none ∧ b.rxbuf = none ∧ ∃ l p k, b.latch = some l ∧ b.pbuf = some p ∧
      b.result = some (.err k) ∧ (k = .protocol ↔ l.rejected) ∧ l.op ≠ 0x04#8

/-- How many SET_FREQ outcomes are held (R92, R109). -/
def State.SendsHeld (s : State) : Prop :=
  match s.block.phase with
  | .sendRst => s.sends.length = 1
  | .done => s.sends.length = if (s.block.latch.map Latch.op) = some 0x04#8 then 2 else 0
  | .idle | .sendA | .waitStatus | .delaying | .sendB | .waitCount | .waitPayload | .failed | .sendF =>
    s.sends = []

/-- The invariant of the machine. -/
structure State.Consistent (s : State) : Prop where
  block : s.block.Consistent
  sends : s.SendsHeld

/-- The request channel's contract: `req_payload` has `plen` bytes (R15). -/
def State.RequestsOk (s : State) : Prop :=
  ∀ r ∈ s.env.reqs, r.payload.length = (descFields r.desc).plen.toNat

/-- No reset is due in the coming step. -/
def State.NoReset (s : State) : Prop := s.env.resets.head? ≠ some 0

/-! ## The channel trace of an operation -/

/-- The messages sent, in order. -/
def sentMessages : List Transaction → List (List Byte)
  | []                => []
  | .send m _ :: rest => m :: sentMessages rest
  | .recv _ _ :: rest => sentMessages rest

/-- The number of receives. -/
def recvCount : List Transaction → Nat
  | []                => 0
  | .send _ _ :: rest => recvCount rest
  | .recv _ _ :: rest => recvCount rest + 1

/-- A transaction without its outcome. -/
inductive PlannedTransaction where
  | send (m : List Byte)
  | recv
  deriving DecidableEq, Repr

/-- What a transaction was, whatever came of it. -/
def Transaction.planned : Transaction → PlannedTransaction
  | .send m _ => .send m
  | .recv _ _ => .recv

/-- The transactions of a successful operation, in the order its rule lists them (R44, R84 to R87,
R92). -/
def plan (l : Latch) (payload : List Byte) : List PlannedTransaction :=
  if l.op = 0x00#8 then [.send (buildWrite l.dev payload), .recv]
  else if l.op = 0x01#8 then [.send (buildReadRequest l.dev l.n), .recv, .recv]
  else if l.op = 0x02#8 then [.send (buildWriteRegister l.dev l.reg payload), .recv]
  else if l.op = 0x03#8 then
    if l.delay = 0#32 then [.send (buildCombined l.dev l.reg l.n), .recv, .recv, .recv]
    else [.send (buildWriteRestart l.dev l.reg), .recv, .send (buildReadFollow l.n), .recv, .recv]
  else if l.op = 0x04#8 then [.send (Config.freqPacket (freqByte l.hz)), .send Config.busResetPacket]
  else []

/-- The transaction went well: a send that returned OK, or an accepted status or count byte. -/
def Transaction.succeeded : Transaction → Bool
  | .send _ .ok       => true
  | .send _ (.err _)  => false
  | .recv _ (.ok [b]) => isAccepted b
  | .recv _ _         => false

/-- The failure a transaction of a register access causes, if it causes one (R81 to R83). -/
def Transaction.failure : Transaction → Option BusError
  | .send _ .ok       => none
  | .send _ (.err e)  => some (.transport e)
  | .recv _ (.err e)  => some (recvError e)
  | .recv _ (.ok [b]) =>
    match decodeStatus b with
    | .timeout => some .timeout
    | .err k   => some (.device k)
    | .ok      => none
  | .recv _ (.ok _)   => none

/-- The trace holds exactly the first `k` planned transactions. -/
def State.Issued (s : State) (l : Latch) (p : List Byte) (k : Nat) : Prop :=
  s.log.trace.map Transaction.planned = (plan l p).take k

/-- Every transaction so far went well. -/
def State.Clean (s : State) : Prop := ∀ x ∈ s.log.trace, x.succeeded = true

/-- The trace of a failed operation (R88, R101, R102): nothing, for a request refused with PROTOCOL; else
the first planned transactions, all well but the last, and RESULT is the failure of that one. -/
def State.FailedTrace (s : State) (l : Latch) (p : List Byte) : Prop :=
  (s.log.trace = [] ∧ s.block.result = some (.err .protocol)) ∨
  ∃ good bad k, s.log.trace = good ++ [bad] ∧ good.length < (plan l p).length ∧
    s.Issued l p (good.length + 1) ∧ (∀ x ∈ good, x.succeeded = true) ∧
    bad.failure = some k ∧ s.block.result = some (.err k)

/-- The transactions of the current operation so far, by phase (R44, R88, R90). -/
def State.TraceFollowsPlan (s : State) : Prop :=
  ∀ l p, s.block.latch = some l → s.block.pbuf = some p →
    match s.block.phase with
    | .idle => True
    | .sendA | .sendF => s.log.trace = []
    | .waitStatus => s.Issued l p 1 ∧ s.Clean
    | .sendRst => s.Issued l p 1
    | .delaying | .sendB => s.Issued l p 2 ∧ s.Clean
    | .waitCount => s.Issued l p ((plan l p).length - 2) ∧ s.Clean
    | .waitPayload => s.Issued l p ((plan l p).length - 1) ∧ s.Clean
    | .done => s.Issued l p (plan l p).length
    | .failed => s.FailedTrace l p

/-! ## The transition table -/

/-- The events of R91. -/
inductive Event where
  | request (r : Request)
  | sendDone (st : SendStatus)
  | recvDone (a : RecvAnswer)
  | expiry
  | response
  deriving DecidableEq, Repr

/-- The event a state offers its sequencer, if one has come. -/
def State.offers (s : State) : Option Event :=
  match s.block.phase with
  | .idle => s.env.reqs.head?.map .request
  | .sendA | .sendB | .sendF | .sendRst => s.env.tx.head?.map .sendDone
  | .waitStatus | .waitCount =>
    match receive 1 s.env.rx with
    | .ok bs _ => some (.recvDone (.ok bs))
    | .err e _ => some (.recvDone (.err e))
    | .pending => none
  | .waitPayload =>
    match receive ((s.block.count.map BitVec.toNat).getD 0) s.env.rx with
    | .ok bs _ => some (.recvDone (.ok bs))
    | .err e _ => some (.recvDone (.err e))
    | .pending => none
  | .delaying => if s.block.timer = some 0#32 ∧ s.env.lags.head? = some 0 then some .expiry else none
  | .done | .failed => if s.env.rspReady then some .response else none

/-- The latch a request writes (R48). -/
def Request.latch (r : Request) : Latch := latchOf (descOp r.desc) (descFields r.desc)

/-- The bytes a request writes to PBUF (R22). -/
def Request.pbuf (r : Request) : List Byte := r.payload.take r.latch.plen.toNat

/-- The block with a request latched (the action "latch" of R91). -/
def Block.latched (b : Block) (r : Request) : Block :=
  { b with latch := some r.latch, pbuf := some r.pbuf }

/-- The block failed with kind `k` (R102). -/
def Block.fails (b : Block) (k : BusError) : Block :=
  { b with result := some (.err k), phase := .failed }

/-- The 28 rows of R91, numbered as there; rows with two conditions or outcomes have one constructor
each. -/
inductive Row : Block → Event → Block → Prop where
  | r1raw (b : Block) (r : Request) : b.phase = .idle → r.latch.op = 0x00#8 →
      255 < r.latch.plen.toNat → Row b (.request r) ((b.latched r).fails .protocol)
  | r1reg (b : Block) (r : Request) : b.phase = .idle → r.latch.op = 0x02#8 →
      254 < r.latch.plen.toNat → Row b (.request r) ((b.latched r).fails .protocol)
  | r2 (b : Block) (r : Request) : b.phase = .idle → r.latch.op = 0x00#8 →
      r.latch.plen.toNat ≤ 255 → Row b (.request r)
      { b.latched r with txbuf := some (buildWrite r.latch.dev r.pbuf), phase := .sendA }
  | r3 (b : Block) (r : Request) : b.phase = .idle → r.latch.op = 0x02#8 →
      r.latch.plen.toNat ≤ 254 → Row b (.request r)
      { b.latched r with txbuf := some (buildWriteRegister r.latch.dev r.latch.reg r.pbuf), phase := .sendA }
  | r4 (b : Block) (r : Request) : b.phase = .idle → r.latch.op = 0x01#8 → Row b (.request r)
      { b.latched r with txbuf := some (buildReadRequest r.latch.dev r.latch.n), phase := .sendA }
  | r5 (b : Block) (r : Request) : b.phase = .idle → r.latch.op = 0x03#8 → r.latch.delay = 0#32 →
      Row b (.request r)
      { b.latched r with
        txbuf := some (buildWriteRestart r.latch.dev r.latch.reg ++ buildReadFollow r.latch.n)
        phase := .sendA }
  | r6 (b : Block) (r : Request) : b.phase = .idle → r.latch.op = 0x03#8 → r.latch.delay ≠ 0#32 →
      Row b (.request r)
      { b.latched r with txbuf := some (buildWriteRestart r.latch.dev r.latch.reg), phase := .sendA }
  | r7 (b : Block) (r : Request) : b.phase = .idle → r.latch.op = 0x04#8 → Row b (.request r)
      { b.latched r with txbuf := some (Config.freqPacket (freqByte r.latch.hz)), phase := .sendF }
  | r8 (b : Block) (r : Request) : b.phase = .idle → 4 < r.latch.op.toNat →
      Row b (.request r) ((b.latched r).fails .protocol)
  | r9read (b : Block) (l : Latch) : b.phase = .sendA → b.latch = some l → l.op = 0x01#8 →
      Row b (.sendDone .ok) { b with phase := .waitCount }
  | r9other (b : Block) (l : Latch) : b.phase = .sendA → b.latch = some l → l.op ≠ 0x01#8 →
      Row b (.sendDone .ok) { b with phase := .waitStatus }
  | r10 (b : Block) (e : TErr) : b.phase = .sendA →
      Row b (.sendDone (.err e)) (b.fails (.transport e))
  | r11timeout (b : Block) (e : TErr) : b.phase = .waitStatus → Config.isTimeout e = true →
      Row b (.recvDone (.err e)) (b.fails .timeout)
  | r11transport (b : Block) (e : TErr) : b.phase = .waitStatus → Config.isTimeout e = false →
      Row b (.recvDone (.err e)) (b.fails (.transport e))
  | r12 (b : Block) : b.phase = .waitStatus → Row b (.recvDone (.ok [0#8])) (b.fails .timeout)
  | r13 (b : Block) (k : ErrorKind) : b.phase = .waitStatus →
      Row b (.recvDone (.ok [errByte k])) (b.fails (.device k))
  | r14 (b : Block) (l : Latch) (x : Byte) : b.phase = .waitStatus → isAccepted x = true →
      b.latch = some l → l.op = 0x00#8 ∨ l.op = 0x02#8 →
      Row b (.recvDone (.ok [x])) { b with result := some (.ok 0#8), phase := .done }
  | r15 (b : Block) (l : Latch) (x : Byte) : b.phase = .waitStatus → isAccepted x = true →
      b.latch = some l → l.op = 0x03#8 → l.delay = 0#32 →
      Row b (.recvDone (.ok [x])) { b with phase := .waitCount }
  | r16 (b : Block) (l : Latch) (x : Byte) : b.phase = .waitStatus → isAccepted x = true →
      b.latch = some l → l.op = 0x03#8 → l.delay ≠ 0#32 →
      Row b (.recvDone (.ok [x])) { b with timer := some l.delay, phase := .delaying }
  | r17 (b : Block) (l : Latch) : b.phase = .delaying → b.latch = some l → b.timer = some 0#32 →
      Row b .expiry { b with txbuf := some (buildReadFollow l.n), timer := none, phase := .sendB }
  | r18 (b : Block) : b.phase = .sendB → Row b (.sendDone .ok) { b with phase := .waitCount }
  | r19 (b : Block) (e : TErr) : b.phase = .sendB →
      Row b (.sendDone (.err e)) (b.fails (.transport e))
  | r20timeout (b : Block) (e : TErr) : b.phase = .waitCount → Config.isTimeout e = true →
      Row b (.recvDone (.err e)) (b.fails .timeout)
  | r20transport (b : Block) (e : TErr) : b.phase = .waitCount → Config.isTimeout e = false →
      Row b (.recvDone (.err e)) (b.fails (.transport e))
  | r21 (b : Block) : b.phase = .waitCount → Row b (.recvDone (.ok [0#8])) (b.fails .timeout)
  | r22 (b : Block) (k : ErrorKind) : b.phase = .waitCount →
      Row b (.recvDone (.ok [errByte k])) (b.fails (.device k))
  | r23 (b : Block) (x : Byte) : b.phase = .waitCount → isAccepted x = true →
      Row b (.recvDone (.ok [x])) { b with count := some x, phase := .waitPayload }
  | r24timeout (b : Block) (e : TErr) : b.phase = .waitPayload → Config.isTimeout e = true →
      Row b (.recvDone (.err e)) (b.fails .timeout)
  | r24transport (b : Block) (e : TErr) : b.phase = .waitPayload → Config.isTimeout e = false →
      Row b (.recvDone (.err e)) (b.fails (.transport e))
  | r25 (b : Block) (c : Byte) (bs : List Byte) : b.phase = .waitPayload → b.count = some c →
      bs.length = c.toNat → Row b (.recvDone (.ok bs))
      { b with rxbuf := some bs, result := some (.ok c), phase := .done }
  | r26 (b : Block) (st : SendStatus) : b.phase = .sendF →
      Row b (.sendDone st) { b with txbuf := some Config.busResetPacket, phase := .sendRst }
  | r27 (b : Block) (st : SendStatus) : b.phase = .sendRst →
      Row b (.sendDone st) { b with result := some (.ok 0#8), phase := .done }
  | r28 (b : Block) : b.phase = .done ∨ b.phase = .failed → Row b .response Block.reset

/-- Several steps, stopping at the first stop. -/
def State.steps (n : Nat) (s : State) : Out := Host.Core.run Sys2Proof.core n s

end Sys2Proof.Machine
end

