-- ==== Sys2Proof/WellFormed.lean ====
section
/-! DEFINITION. Which terms of `Instr` stand for words the spec gives: a payload fits its length byte
(R67), an accepted reply is neither zero nor an error code (R62). -/

namespace Sys2Proof

/-- The check, constructor by constructor. -/
def Instr.wellFormed : Instr → Bool
  | .writeRaw _ => true
  | .readRaw _ => true
  | .writeReg _ => true
  | .readReg _ => true
  | .setFreq _ => true
  | .reserved05 _ => true
  | .reserved06 _ _ => true
  | .reserved08 _ _ => true
  | .reserved10 _ _ => true
  | .reserved20 _ _ => true
  | .reserved40 _ _ => true
  | .reserved80 _ _ => true
  | .packetKind => true
  | .setAddress _ => true
  | .setLength _ => true
  | .setFrequency => true
  | .write => true
  | .writeRestart => true
  | .read => true
  | .readRestart => true
  | .segRawWrite _ p => decide (p.length ≤ 255)
  | .segRegWrite _ _ p => decide (p.length ≤ 254)
  | .segAddrRead _ _ => true
  | .segWriteRestart _ _ => true
  | .segReadFollow _ => true
  | .replyZero => true
  | .errNone => true
  | .errUnescape => true
  | .errLength => true
  | .errRead => true
  | .errWriteData => true
  | .errSendData => true
  | .replyAccept b => decide (b ≠ 0#8) && (errorKindOf b).isNone

/-- The check as a proposition. -/
abbrev Instr.WellFormed (i : Instr) : Prop := i.wellFormed = true

end Sys2Proof
end

