-- ==== Sys2Proof/Certificates/Slice0/Obligations.lean ====
section
/-! DEFINITION. The statements for the provers: each a claim about the model that a numbered rule of
spec/ makes, or that several make together. -/

open Sys2Proof Sys2Proof.Machine

/-! ## Encodings -/

/-- Decoding the bytes of any well-formed instruction, followed by anything, gives it back and leaves
what followed (R40, R48, R52, R55, R62). -/
def Obligations.DecodeOfEncodeIsTheInstruction : Prop :=
  ∀ (i : Instr) (rest : List Byte), i.WellFormed → decode i.format (encode i ++ rest) = .ok (i, rest)

/-- Words written out from the spec's vectors decode to the instructions they stand for (95 sections
2.1, 2.2, 2.4, 2.6). -/
def Obligations.WordsOfTheSpecDecode : Prop :=
  decodeDesc 0x00000002000000000000000000003C00#128 = .writeRaw ⟨0x3C, 0, 0, 0, 0, 2, 0⟩ ∧
  decodeDesc 0x00000000000000000000000502004803#128 = .readReg ⟨0x48, 0, 2, 5, 0, 0, 0⟩ ∧
  decodeDesc 0x000000000007A1200000000000000004#128 = .setFreq ⟨0, 0, 0, 0, 500000, 0, 0⟩ ∧
  decodeDesc 0x00000000000000000000000000000005#128 = .reserved05 ⟨0, 0, 0, 0, 0, 0, 0⟩ ∧
  decode (.wire .tag) [0x77#8] = .ok (.writeRestart, []) ∧
  decode (.wire .tag) [0x33#8] = .error (.notATag 0x33#8) ∧
  decode (.wire .regSegment) [0x32#8, 0x41#8, 0x14#8, 0x4C#8, 0x04#8, 0x57#8, 0x10#8, 0#8, 1#8, 2#8] =
    .ok (.segRegWrite 0x14#8 0x10#8 [0#8, 1#8, 2#8], []) ∧
  decode (.wire .rawSegment) [0x32#8, 0x4C#8, 0x03#8, 0x52#8] = .ok (.segReadFollow 3#8, []) ∧
  decode .reply [0x55#8] = .ok (.errUnescape, []) ∧
  decode .reply [0x4D#8] = .ok (.replyAccept 0x4D#8, [])

/-- Every descriptor is exactly one request: packing what was decoded gives the descriptor back, so no
bit of it is dropped (R48, R49). -/
def Obligations.EveryDescriptorIsOneRequest : Prop :=
  ∀ v : Desc, (decodeDesc v).format = .request ∧
    packDesc (decodeDesc v).opCode (descFields v) = v ∧ encode (decodeDesc v) = descBytes v

/-- Descriptor byte j is bits 8j+7 to 8j, and the bytes determine the descriptor (R40). -/
def Obligations.DescriptorBytesAreLittleEndian : Prop :=
  ∀ v : Desc, (descBytes v).length = 16 ∧
    (∀ j : Nat, j < 16 → (descBytes v)[j]? = some (v.extractLsb' (8 * j) 8)) ∧
    descOfBytes (descBytes v) = v

/-- The tag mapper's table; it is injective, and TagOf is its inverse, none on every other byte
(R52). -/
def Obligations.TagOfIsTheInverseOfTheMapper : Prop :=
  (tagByte .setAddress = 0x41#8 ∧ tagByte .setLength = 0x4C#8 ∧ tagByte .setFrequency = 0x46#8 ∧
    tagByte .write = 0x57#8 ∧ tagByte .writeRestart = 0x77#8 ∧ tagByte .read = 0x52#8 ∧
    tagByte .readRestart = 0x72#8) ∧
  (∀ t u : Tag, tagByte t = tagByte u → t = u) ∧
  (∀ (b : Byte) (t : Tag), tagOf b = some t ↔ tagByte t = b)

/-- The five serializers, byte for byte, the length byte of a write exact (R68 to R72). -/
def Obligations.BuildersGiveTheirBytes : Prop :=
  ∀ (dev reg n : Byte) (payload : List Byte),
    (payload.length ≤ 255 → ∃ len : Byte, len.toNat = payload.length ∧
      buildWrite dev payload = [0x32#8, 0x41#8, dev, 0x4C#8, len, 0x57#8] ++ payload) ∧
    (payload.length ≤ 254 → ∃ len : Byte, len.toNat = payload.length + 1 ∧
      buildWriteRegister dev reg payload = [0x32#8, 0x41#8, dev, 0x4C#8, len, 0x57#8, reg] ++ payload) ∧
    buildReadRequest dev n = [0x32#8, 0x41#8, dev, 0x4C#8, n, 0x52#8] ∧
    buildWriteRestart dev reg = [0x32#8, 0x41#8, dev, 0x4C#8, 0x01#8, 0x77#8, reg] ∧
    buildReadFollow n = [0x32#8, 0x4C#8, n, 0x52#8]

/-- The round-trip law of the register write (R78). -/
def Obligations.RegisterWriteParsesBack : Prop :=
  ∀ (dev reg : Byte) (payload : List Byte), payload.length ≤ 254 →
    parseWriteRegister (buildWriteRegister dev reg payload) = some (dev, reg, payload)

/-- ParseWriteRegister accepts exactly the messages R77 names, with the fields it names. -/
def Obligations.ParserAcceptsExactlyRegisterWrites : Prop :=
  ∀ (m : List Byte) (dev reg : Byte) (payload : List Byte),
    parseWriteRegister m = some (dev, reg, payload) ↔
      7 ≤ m.length ∧ m[0]? = some 0x32#8 ∧ m[1]? = some 0x41#8 ∧ m[3]? = some 0x4C#8 ∧
      m[5]? = some 0x57#8 ∧
      (∃ len : Byte, m[4]? = some len ∧ 1 ≤ len.toNat ∧ len.toNat = m.length - 6) ∧
      m[2]? = some dev ∧ m[6]? = some reg ∧ m.drop 7 = payload

/-- A reader that follows R59, told which operation wrote the message (log 22), splits each message the
builders make into its segments, the combined packet into two (R55, R58, R59, R60). -/
def Obligations.SentMessagesSplitIntoSegments : Prop :=
  ∀ (dev reg n : Byte) (payload : List Byte),
    (payload.length ≤ 255 →
      splitMessage .rawSegment 1 (buildWrite dev payload) = some [.segRawWrite dev payload]) ∧
    (payload.length ≤ 254 →
      splitMessage .regSegment 1 (buildWriteRegister dev reg payload) =
        some [.segRegWrite dev reg payload]) ∧
    splitMessage .rawSegment 1 (buildReadRequest dev n) = some [.segAddrRead dev n] ∧
    splitMessage .regSegment 1 (buildWriteRestart dev reg) = some [.segWriteRestart dev reg] ∧
    splitMessage .rawSegment 1 (buildReadFollow n) = some [.segReadFollow n] ∧
    splitMessage .regSegment 2 (buildCombined dev reg n) =
      some [.segWriteRestart dev reg, .segReadFollow n]

/-- Every message of a register access opens with the packet-kind byte, and its command byte is Write,
WriteRestart or Read, never ReadRestart (R51, R53, R54). -/
def Obligations.NoMessageCarriesReadRestart : Prop :=
  ∀ (l : Latch) (p m : List Byte), l.op ≠ 0x04#8 → m ∈ plannedSends l p →
    m[0]? = some 0x32#8 ∧
    ((m[1]? = some 0x41#8 ∧
        (m[5]? = some 0x57#8 ∨ m[5]? = some 0x52#8 ∨
          (m[5]? = some 0x77#8 ∧ (m.length = 7 ∨
            (m[7]? = some 0x32#8 ∧ m[8]? = some 0x4C#8 ∧ m[10]? = some 0x52#8))))) ∨
     (m[1]? = some 0x4C#8 ∧ m[3]? = some 0x52#8))

/-- The message of an outstanding register-access send has 4 to 261 bytes (R23, R42, R60). -/
def Obligations.OutstandingMessagesFitTheBuffer : Prop :=
  ∀ b : Block, b.Consistent → b.phase = .sendA ∨ b.phase = .sendB →
    ∃ m, b.txData = some m ∧ 4 ≤ m.length ∧ m.length ≤ 261 ∧
      b.txLen = some (BitVec.ofNat 16 m.length)

/-! ## Codec verdicts -/

/-- The frequency byte truncates and masks (R57). -/
def Obligations.FrequencyByteTruncatesAndMasks : Prop :=
  ∀ hz : Word, (freqByte hz).toNat = (hz.toNat / 10000) % 256 ∧
    freqByte hz = (BitVec.ofNat 32 (hz.toNat / 10000)).extractLsb' 0 8

/-- The length check, and that the sequencer turns its PROTOCOL into the failure before any transport
transaction (R67). -/
def Obligations.LengthCheckLimits : Prop :=
  (∀ plen : Half,
    (lenCheckRaw plen = .protocol ↔ 255 < plen.toNat) ∧ (lenCheckRaw plen = .pass ↔ plen.toNat ≤ 255) ∧
    (lenCheckReg plen = .protocol ↔ 254 < plen.toNat) ∧
    (lenCheckReg plen = .pass ↔ plen.toNat ≤ 254)) ∧
  (∀ (d : ReqFields) (s : State), s.block.phase = .idle →
    (lenCheckRaw d.plen = .protocol → ∃ t, exec (.writeRaw d) s = .next t ∧ t.block.phase = .failed ∧
      t.block.result = some (.err .protocol) ∧ t.log.trace = [] ∧ t.env = s.env) ∧
    (lenCheckReg d.plen = .protocol → ∃ t, exec (.writeReg d) s = .next t ∧ t.block.phase = .failed ∧
      t.block.result = some (.err .protocol) ∧ t.log.trace = [] ∧ t.env = s.env))

/-- DecodeStatus and DecodeCount on every byte (R74, R75). -/
def Obligations.ReplyParsersOnEveryByte : Prop :=
  ∀ b : Byte,
    (decodeStatus b = .timeout ↔ b = 0x00#8) ∧
    (decodeStatus b = .err .none ↔ b = 0x4E#8) ∧ (decodeStatus b = .err .unescape ↔ b = 0x55#8) ∧
    (decodeStatus b = .err .length ↔ b = 0x4C#8) ∧ (decodeStatus b = .err .read ↔ b = 0x52#8) ∧
    (decodeStatus b = .err .writeData ↔ b = 0x57#8) ∧ (decodeStatus b = .err .sendData ↔ b = 0x53#8) ∧
    (decodeCount b = .timeout ↔ b = 0x00#8) ∧
    (∀ k, decodeCount b = .err k ↔ decodeStatus b = .err k) ∧
    (∀ c, decodeCount b = .count c ↔ (decodeStatus b = .ok ∧ c = b))

/-! ## Requests -/

/-- WRITE_RAW in IDLE with a payload that fits: the request is latched and the raw write packet is
offered to the transport; nothing else changes (R68, R79, R84). -/
def Obligations.WriteRawSendsItsPacket : Prop :=
  ∀ (d : ReqFields) (s : State), s.block.phase = .idle → d.plen.toNat ≤ 255 →
    d.plen.toNat ≤ s.env.payload.length →
    exec (.writeRaw d) s = .next { s with
      block.latch := some ⟨0x00#8, d.dev, d.reg, d.n, d.delay, d.hz, d.plen⟩
      block.pbuf := some (s.env.payload.take d.plen.toNat)
      block.txbuf := some ([0x32#8, 0x41#8, d.dev, 0x4C#8, d.plen.setWidth 8, 0x57#8] ++
        s.env.payload.take d.plen.toNat)
      block.phase := .sendA
      sends := []
      log.trace := [] }

/-- READ_RAW in IDLE: the addressed read packet, whatever `n` is (R70, R79, R85). -/
def Obligations.ReadRawSendsItsPacket : Prop :=
  ∀ (d : ReqFields) (s : State), s.block.phase = .idle →
    exec (.readRaw d) s = .next { s with
      block.latch := some ⟨0x01#8, d.dev, d.reg, d.n, d.delay, d.hz, d.plen⟩
      block.pbuf := some (s.env.payload.take d.plen.toNat)
      block.txbuf := some [0x32#8, 0x41#8, d.dev, 0x4C#8, d.n, 0x52#8]
      block.phase := .sendA
      sends := []
      log.trace := [] }

/-- WRITE_REG in IDLE with a payload that fits: the register write packet, its length byte one more
than the payload's length (R69, R79, R86). -/
def Obligations.WriteRegSendsItsPacket : Prop :=
  ∀ (d : ReqFields) (s : State), s.block.phase = .idle → d.plen.toNat ≤ 254 →
    d.plen.toNat ≤ s.env.payload.length →
    exec (.writeReg d) s = .next { s with
      block.latch := some ⟨0x02#8, d.dev, d.reg, d.n, d.delay, d.hz, d.plen⟩
      block.pbuf := some (s.env.payload.take d.plen.toNat)
      block.txbuf := some ([0x32#8, 0x41#8, d.dev, 0x4C#8, d.plen.setWidth 8 + 1#8, 0x57#8, d.reg] ++
        s.env.payload.take d.plen.toNat)
      block.phase := .sendA
      sends := []
      log.trace := [] }

/-- READ_REG in IDLE with delay 0: one combined packet (R58, R79, R87). -/
def Obligations.ReadRegWithoutDelaySendsOnePacket : Prop :=
  ∀ (d : ReqFields) (s : State), s.block.phase = .idle → d.delay = 0#32 →
    exec (.readReg d) s = .next { s with
      block.latch := some ⟨0x03#8, d.dev, d.reg, d.n, d.delay, d.hz, d.plen⟩
      block.pbuf := some (s.env.payload.take d.plen.toNat)
      block.txbuf := some [0x32#8, 0x41#8, d.dev, 0x4C#8, 0x01#8, 0x77#8, d.reg, 0x32#8, 0x4C#8, d.n, 0x52#8]
      block.phase := .sendA
      sends := []
      log.trace := [] }

/-- READ_REG in IDLE with a positive delay: the write-restart packet alone (R71, R79, R87). -/
def Obligations.ReadRegWithDelaySendsWriteRestart : Prop :=
  ∀ (d : ReqFields) (s : State), s.block.phase = .idle → d.delay ≠ 0#32 →
    exec (.readReg d) s = .next { s with
      block.latch := some ⟨0x03#8, d.dev, d.reg, d.n, d.delay, d.hz, d.plen⟩
      block.pbuf := some (s.env.payload.take d.plen.toNat)
      block.txbuf := some [0x32#8, 0x41#8, d.dev, 0x4C#8, 0x01#8, 0x77#8, d.reg]
      block.phase := .sendA
      sends := []
      log.trace := [] }

/-- SET_FREQ in IDLE: FREQ_PACKET of the truncated and masked frequency byte (R57, R79, R92, R93). -/
def Obligations.SetFreqSendsTheFrequencyPacket : Prop :=
  ∀ (d : ReqFields) (s : State), s.block.phase = .idle →
    exec (.setFreq d) s = .next { s with
      block.latch := some ⟨0x04#8, d.dev, d.reg, d.n, d.delay, d.hz, d.plen⟩
      block.pbuf := some (s.env.payload.take d.plen.toNat)
      block.txbuf := some (Config.freqPacket (BitVec.ofNat 8 (d.hz.toNat / 10000 % 256)))
      block.phase := .sendF
      sends := []
      log.trace := [] }

/-- A write whose payload cannot be length-prefixed fails with PROTOCOL at the request step, with no
transport transaction (R50, R67, R79). -/
def Obligations.OverlongWritesFailWithProtocol : Prop :=
  ∀ (d : ReqFields) (s : State), s.block.phase = .idle →
    (255 < d.plen.toNat → exec (.writeRaw d) s = .next { s with
      block.latch := some ⟨0x00#8, d.dev, d.reg, d.n, d.delay, d.hz, d.plen⟩
      block.pbuf := some (s.env.payload.take d.plen.toNat)
      block.result := some (.err .protocol)
      block.phase := .failed
      sends := []
      log.trace := [] }) ∧
    (254 < d.plen.toNat → exec (.writeReg d) s = .next { s with
      block.latch := some ⟨0x02#8, d.dev, d.reg, d.n, d.delay, d.hz, d.plen⟩
      block.pbuf := some (s.env.payload.take d.plen.toNat)
      block.result := some (.err .protocol)
      block.phase := .failed
      sends := []
      log.trace := [] })

/-- A write whose length passes the check but whose `req_payload` has fewer than `plen` bytes breaks the
request channel's contract (R15): the request step would read payload bytes PBUF does not hold, a fault
of the model (R30; the model's reading is log 9). -/
def Obligations.ShortPayloadsFault : Prop :=
  ∀ (d : ReqFields) (s : State), s.block.phase = .idle → s.env.payload.length < d.plen.toNat →
    (d.plen.toNat ≤ 255 → exec (.writeRaw d) s = .fault (.absent .pbuf)) ∧
    (d.plen.toNat ≤ 254 → exec (.writeReg d) s = .fault (.absent .pbuf))

/-- The state after an accepted request with a reserved op code (R96). -/
def Sys2Proof.Machine.State.afterReserved (op : Byte) (d : ReqFields) (s : State) : State :=
  { s with
    block.latch := some ⟨op, d.dev, d.reg, d.n, d.delay, d.hz, d.plen⟩
    block.pbuf := some (s.env.payload.take d.plen.toNat)
    block.result := some (.err .protocol)
    block.phase := .failed
    sends := []
    log.trace := [] }

/-- Every reserved op code 0x05 to 0xFF is accepted in IDLE and fails with PROTOCOL; the trace stays
empty (R96). -/
def Obligations.ReservedOpCodesFailWithProtocol : Prop :=
  (∀ (d : ReqFields) (s : State), s.block.phase = .idle →
    exec (.reserved05 d) s = .next (s.afterReserved 0x05#8 d) ∧
    (∀ lo, exec (.reserved06 lo d) s = .next (s.afterReserved (0x06#8 + lo.setWidth 8) d)) ∧
    (∀ lo, exec (.reserved08 lo d) s = .next (s.afterReserved (0x08#8 + lo.setWidth 8) d)) ∧
    (∀ lo, exec (.reserved10 lo d) s = .next (s.afterReserved (0x10#8 + lo.setWidth 8) d)) ∧
    (∀ lo, exec (.reserved20 lo d) s = .next (s.afterReserved (0x20#8 + lo.setWidth 8) d)) ∧
    (∀ lo, exec (.reserved40 lo d) s = .next (s.afterReserved (0x40#8 + lo.setWidth 8) d)) ∧
    (∀ lo, exec (.reserved80 lo d) s = .next (s.afterReserved (0x80#8 + lo.setWidth 8) d))) ∧
  (∀ (v : Desc) (s : State), s.block.phase = .idle → 4 < (descOp v).toNat →
    exec (decodeDesc v) s = .next (s.afterReserved (descOp v) (descFields v)))

/-- A request presented in any phase but IDLE is not accepted and waits: it is at the head of the
channel, and nothing else has changed (R14, R15). -/
def Obligations.BusyBlockLeavesRequestsWaiting : Prop :=
  ∀ (i : Instr) (s : State), i.format = .request → s.block.phase ≠ .idle →
    ∃ v : Desc, decodeDesc v = i ∧
      exec i s = .next { s with env.reqs := ⟨v, s.env.payload⟩ :: s.env.reqs }

/-- The frame of every request row in IDLE: COUNT, RXBUF, TIMER, the inputs, the codec's output, the
free value counter, the responses and the events stay (R21, R79). -/
def Obligations.RequestsChangeNothingElse : Prop :=
  ∀ (i : Instr) (s t : State), i.format = .request → s.block.phase = .idle → exec i s = .next t →
    t.block.count = s.block.count ∧ t.block.rxbuf = s.block.rxbuf ∧ t.block.timer = s.block.timer ∧
    t.env = s.env ∧ t.codecOut = s.codecOut ∧ t.draws = s.draws ∧
    t.log.responses = s.log.responses ∧ t.log.events = s.log.events ∧ t.log.trace = [] ∧
    (t.block.phase = .sendA ∨ t.block.phase = .sendF ∨
      (t.block.phase = .failed ∧ t.block.txbuf = s.block.txbuf))

/-- Two descriptors that differ in their reserved bits only do the same in IDLE (R50). -/
def Obligations.ReservedDescriptorBitsAreIgnored : Prop :=
  ∀ (v w : Desc) (s : State), s.block.phase = .idle →
    v.extractLsb' 0 112 = w.extractLsb' 0 112 → exec (decodeDesc v) s = exec (decodeDesc w) s

/-! ## Codec calls -/

/-- The packet-kind byte and the tags that are emitted: each row appends its bytes to the codec's
output and changes nothing else (R51, R52). -/
def Obligations.TagsEmitTheirBytes : Prop :=
  ∀ (x : Byte) (s : State),
    exec .packetKind s = .next { s with codecOut := s.codecOut ++ [0x32#8] } ∧
    exec (.setAddress x) s = .next { s with codecOut := s.codecOut ++ [0x41#8, x] } ∧
    exec (.setLength x) s = .next { s with codecOut := s.codecOut ++ [0x4C#8, x] } ∧
    exec .setFrequency s = .next { s with codecOut := s.codecOut ++ [0x46#8] } ∧
    exec .write s = .next { s with codecOut := s.codecOut ++ [0x57#8] } ∧
    exec .writeRestart s = .next { s with codecOut := s.codecOut ++ [0x77#8] } ∧
    exec .read s = .next { s with codecOut := s.codecOut ++ [0x52#8] }

/-- The five segments: each row appends exactly its serializer's bytes and changes nothing else (R68 to
R72). -/
def Obligations.SegmentsEmitTheirBytes : Prop :=
  ∀ (dev reg n : Byte) (payload : List Byte) (s : State),
    (payload.length ≤ 255 → exec (.segRawWrite dev payload) s = .next { s with codecOut := s.codecOut ++
      ([0x32#8, 0x41#8, dev, 0x4C#8, BitVec.ofNat 8 payload.length, 0x57#8] ++ payload) }) ∧
    (payload.length ≤ 254 → exec (.segRegWrite dev reg payload) s = .next { s with codecOut := s.codecOut ++
      ([0x32#8, 0x41#8, dev, 0x4C#8, BitVec.ofNat 8 (payload.length + 1), 0x57#8, reg] ++ payload) }) ∧
    exec (.segAddrRead dev n) s = .next { s with codecOut := s.codecOut ++
      [0x32#8, 0x41#8, dev, 0x4C#8, n, 0x52#8] } ∧
    exec (.segWriteRestart dev reg) s = .next { s with codecOut := s.codecOut ++
      [0x32#8, 0x41#8, dev, 0x4C#8, 0x01#8, 0x77#8, reg] } ∧
    exec (.segReadFollow n) s = .next { s with codecOut := s.codecOut ++ [0x32#8, 0x4C#8, n, 0x52#8] }

/-- ReadRestart is never emitted: its row stops by name in every state (R53). -/
def Obligations.ReadRestartIsNeverEmitted : Prop :=
  ∀ s : State, exec .readRestart s = .refused .neverEmitted

/-- A write segment whose payload does not fit its length byte is refused in every state, never
emitted with a truncated length (R56, R67). -/
def Obligations.OverlongSegmentsAreRefused : Prop :=
  ∀ (dev reg : Byte) (payload : List Byte) (s : State),
    (255 < payload.length → exec (.segRawWrite dev payload) s = .refused .unencodable) ∧
    (254 < payload.length → exec (.segRegWrite dev reg payload) s = .refused .unencodable)

/-- Each of the five segments is its tags in order, then its body: running the tags one after the other
and appending the body does what the segment's row does (R52, R54, R55; codec calls: log 11). -/
def Obligations.SegmentsAreTheirTagsInOrder : Prop :=
  ∀ (dev reg n : Byte) (payload : List Byte) (s : State), ∃ (start : State) (header : Byte → State),
    exec .packetKind s = .next start ∧
    (∀ len, ∃ s1, exec (.setAddress dev) start = .next s1 ∧
      exec (.setLength len) s1 = .next (header len)) ∧
    (payload.length ≤ 255 → ∃ t, exec .write (header (BitVec.ofNat 8 payload.length)) = .next t ∧
      exec (.segRawWrite dev payload) s = .next { t with codecOut := t.codecOut ++ payload }) ∧
    (payload.length ≤ 254 → ∃ t, exec .write (header (BitVec.ofNat 8 (payload.length + 1))) = .next t ∧
      exec (.segRegWrite dev reg payload) s =
        .next { t with codecOut := t.codecOut ++ reg :: payload }) ∧
    exec .read (header n) = exec (.segAddrRead dev n) s ∧
    (∃ t, exec .writeRestart (header 1#8) = .next t ∧
      exec (.segWriteRestart dev reg) s = .next { t with codecOut := t.codecOut ++ [reg] }) ∧
    (∃ u, exec (.setLength n) start = .next u ∧ exec .read u = exec (.segReadFollow n) s)

/-! ## Replies -/

/-- The state after a reply byte `b` that fails the operation with `k` (R102). -/
def Sys2Proof.Machine.State.afterBadReply (b : Byte) (k : BusError) (s : State) : State :=
  { s with
    block.result := some (.err k)
    block.phase := .failed
    log.trace := s.log.trace ++ [.recv 1 (.ok [b])] }

/-- Each of the six error codes, as a status byte and as a count byte, fails the operation with DEVICE
of its kind; nothing else changes (R61, R82, R83, R97). -/
def Obligations.ErrorCodesFailWithDevice : Prop :=
  ∀ s : State, s.block.phase = .waitStatus ∨ s.block.phase = .waitCount →
    exec .errNone s = .next (s.afterBadReply 0x4E#8 (.device .none)) ∧
    exec .errUnescape s = .next (s.afterBadReply 0x55#8 (.device .unescape)) ∧
    exec .errLength s = .next (s.afterBadReply 0x4C#8 (.device .length)) ∧
    exec .errRead s = .next (s.afterBadReply 0x52#8 (.device .read)) ∧
    exec .errWriteData s = .next (s.afterBadReply 0x57#8 (.device .writeData)) ∧
    exec .errSendData s = .next (s.afterBadReply 0x53#8 (.device .sendData))

/-- A zero status byte and a zero count byte fail the operation with TIMEOUT (R82, R83, R97). -/
def Obligations.ZeroReplyFailsWithTimeout : Prop :=
  ∀ s : State, s.block.phase = .waitStatus ∨ s.block.phase = .waitCount →
    exec .replyZero s = .next (s.afterBadReply 0x00#8 .timeout)

/-- An accepted status byte completes a write with OK and no data (R82, R84, R86, R91 row 14). -/
def Obligations.AcceptedStatusCompletesWrites : Prop :=
  ∀ (b : Byte) (l : Latch) (s : State), s.block.phase = .waitStatus → (Instr.replyAccept b).WellFormed →
    s.block.latch = some l → l.op = 0x00#8 ∨ l.op = 0x02#8 →
    exec (.replyAccept b) s = .next { s with
      block.result := some (.ok 0#8)
      block.phase := .done
      log.trace := s.log.trace ++ [.recv 1 (.ok [b])] }

/-- An accepted acknowledgment of READ_REG leads to the count byte when the delay is zero, and to the
wait with TIMER loaded otherwise (R27, R87, R91 rows 15 and 16). -/
def Obligations.AcceptedAcknowledgmentSelectsThePath : Prop :=
  ∀ (b : Byte) (l : Latch) (s : State), s.block.phase = .waitStatus → (Instr.replyAccept b).WellFormed →
    s.block.latch = some l → l.op = 0x03#8 →
    (l.delay = 0#32 → exec (.replyAccept b) s = .next { s with
      block.phase := .waitCount
      log.trace := s.log.trace ++ [.recv 1 (.ok [b])] }) ∧
    (l.delay ≠ 0#32 → exec (.replyAccept b) s = .next { s with
      block.phase := .delaying
      block.timer := some l.delay
      log.trace := s.log.trace ++ [.recv 1 (.ok [b])] })

/-- An accepted count byte is written to COUNT whatever length was asked for, and the payload is
awaited (R24, R75, R83, R91 row 23). -/
def Obligations.AcceptedCountIsKept : Prop :=
  ∀ (b : Byte) (s : State), s.block.phase = .waitCount → (Instr.replyAccept b).WellFormed →
    exec (.replyAccept b) s = .next { s with
      block.count := some b
      block.phase := .waitPayload
      log.trace := s.log.trace ++ [.recv 1 (.ok [b])] }

/-- In a phase with no status or count byte outstanding, a reply byte of any class stays in the stream
for the next receive, and nothing else changes (R37, R76; the model's choice of log 14). -/
def Obligations.OtherPhasesLeaveRepliesInTheStream : Prop :=
  ∀ (i : Instr) (s : State), i.format = .reply → s.block.phase ≠ .waitStatus →
    s.block.phase ≠ .waitCount →
    ∃ b : Byte, encode i = [b] ∧ exec i s = .next { s with env.rx := .byte b :: s.env.rx }

/-! ## The transport, the timer, the response and reset -/

/-- A receive takes exactly the bytes it asks for or none: complete, it took the first k items, all
bytes; failed, it took one error and left every byte; the block never asks for zero bytes (R35, R36,
R42). -/
def Obligations.ReceiveTakesExactlyItsBytes : Prop :=
  (∀ (k : Nat) (rx rest : List RxItem) (bs : List Byte), receive k rx = .ok bs rest →
    bs.length = k ∧ rx = bs.map RxItem.byte ++ rest) ∧
  (∀ (k : Nat) (rx rest : List RxItem) (e : TErr), receive k rx = .err e rest →
    ∃ (bs : List Byte) (more : List RxItem), bs.length < k ∧
      rx = bs.map RxItem.byte ++ .fail e :: more ∧ rest = bs.map RxItem.byte ++ more) ∧
  (∀ b : Block, b.Consistent → b.rxReqValid = true → ∃ k : Byte, b.rxCount = some k ∧ 1 ≤ k.toNat)

/-- SEND_A: the send's outcome decides between the next receive and TRANSPORT with the error
unchanged (R81, R91 rows 9 and 10). -/
def Obligations.FirstSendCompletes : Prop :=
  ∀ (s : State) (m : List Byte) (l : Latch) (rest : List SendStatus), s.env.resets = [] →
    s.env.calls = [] → s.block.phase = .sendA → s.block.txbuf = some m → s.block.latch = some l →
    (s.env.tx = .ok :: rest → step s = .next { s with
      env.tx := rest
      block.phase := if l.op = 0x01#8 then .waitCount else .waitStatus
      log.trace := s.log.trace ++ [.send m .ok] }) ∧
    (∀ e, s.env.tx = .err e :: rest → step s = .next { s with
      env.tx := rest
      block.result := some (.err (.transport e))
      block.phase := .failed
      log.trace := s.log.trace ++ [.send m (.err e)] })

/-- SEND_B: likewise for the read-follow send (R81, R91 rows 18 and 19). -/
def Obligations.SecondSendCompletes : Prop :=
  ∀ (s : State) (m : List Byte) (rest : List SendStatus), s.env.resets = [] → s.env.calls = [] →
    s.block.phase = .sendB → s.block.txbuf = some m →
    (s.env.tx = .ok :: rest → step s = .next { s with
      env.tx := rest
      block.phase := .waitCount
      log.trace := s.log.trace ++ [.send m .ok] }) ∧
    (∀ e, s.env.tx = .err e :: rest → step s = .next { s with
      env.tx := rest
      block.result := some (.err (.transport e))
      block.phase := .failed
      log.trace := s.log.trace ++ [.send m (.err e)] })

/-- SET_FREQ: whatever the two sends return, the bus reset follows the frequency packet and the
operation ends OK with no data; the outcomes are only kept for the event (R92, R95, R91 rows 26, 27). -/
def Obligations.SetFreqIgnoresSendOutcomes : Prop :=
  ∀ (s : State) (m : List Byte) (st : SendStatus) (rest : List SendStatus), s.env.resets = [] →
    s.env.calls = [] → s.block.txbuf = some m → s.env.tx = st :: rest →
    (s.block.phase = .sendF → step s = .next { s with
      env.tx := rest
      block.txbuf := some Config.busResetPacket
      block.phase := .sendRst
      sends := s.sends ++ [st]
      log.trace := s.log.trace ++ [.send m st] }) ∧
    (s.block.phase = .sendRst → step s = .next { s with
      env.tx := rest
      block.result := some (.ok 0#8)
      block.phase := .done
      sends := s.sends ++ [st]
      log.trace := s.log.trace ++ [.send m st] })

/-- A failed receive in any waiting phase gives TIMEOUT when the error is a timeout and TRANSPORT with
the error unchanged otherwise; no partial data is kept (R36, R81, R98, R91 rows 11, 20, 24). -/
def Obligations.FailedReceivesFailTheOperation : Prop :=
  ∀ (s : State) (k : Byte) (e : TErr) (rest : List RxItem), s.env.resets = [] → s.env.calls = [] →
    s.block.rxCount = some k → receive k.toNat s.env.rx = .err e rest →
    step s = .next { s with
      env.rx := rest
      block.result := some (.err (if Config.isTimeout e then .timeout else .transport e))
      block.phase := .failed
      log.trace := s.log.trace ++ [.recv k.toNat (.err e)] }

/-- The payload's bytes go to RXBUF unclassified and in order, and the operation ends OK with COUNT
bytes (R25, R76, R83, R91 row 25). -/
def Obligations.PayloadIsStoredUnchanged : Prop :=
  ∀ (s : State) (c : Byte) (data : List Byte) (rest : List RxItem), s.env.resets = [] →
    s.env.calls = [] → s.block.phase = .waitPayload → s.block.count = some c →
    data.length = c.toNat → s.env.rx = data.map RxItem.byte ++ rest →
    step s = .next { s with
      env.rx := rest
      block.rxbuf := some data
      block.result := some (.ok c)
      block.phase := .done
      log.trace := s.log.trace ++ [.recv c.toNat (.ok data)] }

/-- The delay timer: while TIMER is not zero a step only counts one TIME_UNIT; at zero the expiry
brings the read-follow packet, TIMER valueless; until the expiry comes, however long, the block stays
(R27, R87, R106, R91 row 17; one step per TIME_UNIT is the model's choice of log 7). -/
def Obligations.DelayEndsNoEarlierThanItsBound : Prop :=
  ∀ (s : State) (l : Latch) (t : Word), s.env.resets = [] → s.env.calls = [] →
    s.block.phase = .delaying → s.block.latch = some l → s.block.timer = some t →
    (t ≠ 0#32 → step s = .next { s with block.timer := some (t - 1#32) }) ∧
    (t = 0#32 → ∀ rest, s.env.lags = 0 :: rest → step s = .next { s with
      env.lags := rest
      block.timer := none
      block.txbuf := some [0x32#8, 0x4C#8, l.n, 0x52#8]
      block.phase := .sendB }) ∧
    (t = 0#32 → ∀ k rest, s.env.lags = (k + 1) :: rest → step s = .next { s with env.lags := k :: rest }) ∧
    (t = 0#32 → s.env.lags = [] → step s = .next s)

/-- The response step: the caller receives RESULT with the data of RXBUF, the completion event is
emitted, every element becomes valueless and the phase is IDLE; until the caller takes the response the
block takes no other step (R80, R103, R109). -/
def Obligations.ResponseIsDeliveredAndRetired : Prop :=
  ∀ (s : State) (l : Latch), s.env.resets = [] → s.env.calls = [] → s.block.latch = some l →
    (∀ (len : Byte) (d : List Byte), s.env.rspReady = true → s.block.phase = .done →
      s.block.result = some (.ok len) →
      (len = 0#8 ∧ d = [] ∨ s.block.rxbuf = some d ∧ d.length = len.toNat) →
      step s = .next { s with
        block := ⟨.idle, none, none, none, none, none, none, none⟩
        sends := []
        log.responses := s.log.responses ++ [⟨len.setWidth 32 <<< 8, none, d⟩]
        log.events := s.log.events ++ [⟨l.op, .ok len, if l.op = 0x04#8 then s.sends else []⟩] }) ∧
    (∀ k : BusError, s.env.rspReady = true → s.block.phase = .failed →
      s.block.result = some (.err k) →
      step s = .next { s with
        block := ⟨.idle, none, none, none, none, none, none, none⟩
        sends := []
        log.responses := s.log.responses ++ [⟨rspDescOf (.err k), rspTerrOf (.err k), []⟩]
        log.events := s.log.events ++ [⟨l.op, .err k, if l.op = 0x04#8 then s.sends else []⟩] }) ∧
    (s.env.rspReady = false → s.block.phase = .done ∨ s.block.phase = .failed → step s = .next s)

/-- A phase whose event has not come takes no step: the state stays, the delay timer's count apart
(R89, R91). -/
def Obligations.PhasesWithoutEventStay : Prop :=
  ∀ s : State, s.Consistent → s.env.resets = [] → s.env.calls = [] → s.block.phase ≠ .delaying →
    s.offers = none → step s = .next s

/-- Reset in any phase: every element takes its reset value; no response and no event is produced; the
requests, the timer's lags and the caller's readiness are untouched; outside an operation the transport
is untouched, in one the outstanding send's completion is ignored (R111, R112; that the bookkeeping
fields are cleared, and what the stream holds after a reset in mid-operation, is logs 3, 4 and 15). -/
def Obligations.ResetTakesEffectInAnyPhase : Prop :=
  ∀ (s : State) (rest : List Nat), s.env.resets = 0 :: rest → ∃ t, step s = .next t ∧
    t.block = ⟨.idle, none, none, none, none, none, none, none⟩ ∧ t.sends = [] ∧
    t.log.responses = s.log.responses ∧ t.log.events = s.log.events ∧
    t.env.resets = rest ∧ t.env.reqs = s.env.reqs ∧ t.env.lags = s.env.lags ∧
    t.env.rspReady = s.env.rspReady ∧
    (s.block.phase.midOperation = false → t.env.rx = s.env.rx ∧ t.draws = s.draws) ∧
    (s.block.txValid = false → t.env.tx = s.env.tx) ∧
    (s.block.txValid = true → t.env.tx = s.env.tx.tail) ∧
    (s.block.phase.midOperation = true → t.env.rx = Config.rxAfterReset s.draws ∧ t.draws = s.draws + 1)

/-! ## Outputs -/

/-- The elements and outputs right after reset (R31). -/
def Obligations.ResetStateHoldsTheResetValues : Prop :=
  State.reset.block = ⟨.idle, none, none, none, none, none, none, none⟩ ∧
  State.reset.block.status = 0x00#8 ∧ State.reset.block.reqReady = true ∧
  State.reset.block.rspValid = false ∧ State.reset.block.txValid = false ∧
  State.reset.block.rxReqValid = false ∧
  State.reset.block.rspDesc = none ∧ State.reset.block.rspTerr = none ∧
  State.reset.block.rspData = none ∧ State.reset.block.txLen = none ∧
  State.reset.block.txData = none ∧ State.reset.block.rxCount = none

/-- The status output: the phase's code, BUSY, zeros; the eleven codes are those of R20's table, and the
code determines the phase (R19, R20). -/
def Obligations.StatusShowsPhaseAndBusy : Prop :=
  (∀ b : Block, b.status.extractLsb' 0 4 = b.phase.code ∧
    (b.status.getLsbD 4 = true ↔ b.phase ≠ .idle) ∧ b.status.extractLsb' 5 3 = 0#3 ∧
    (∀ c : Block, c.status = b.status → c.phase = b.phase)) ∧
  Phase.idle.code = 0x0#4 ∧ Phase.sendA.code = 0x1#4 ∧ Phase.waitStatus.code = 0x2#4 ∧
  Phase.delaying.code = 0x3#4 ∧ Phase.sendB.code = 0x4#4 ∧ Phase.waitCount.code = 0x5#4 ∧
  Phase.waitPayload.code = 0x6#4 ∧ Phase.done.code = 0x7#4 ∧ Phase.failed.code = 0x8#4 ∧
  Phase.sendF.code = 0x9#4 ∧ Phase.sendRst.code = 0xA#4

/-- The fields of the response descriptor for every result (R64). -/
def Obligations.ResponseDescriptorFields : Prop :=
  ∀ r : Result,
    (rspDescOf r).extractLsb' 0 3 = (match r with
      | .ok _ => 0#3 | .err (.transport _) => 1#3 | .err .timeout => 2#3 | .err (.device _) => 3#3
      | .err .protocol => 4#3) ∧
    (rspDescOf r).extractLsb' 3 3 = (match r with
      | .err (.device .none) => 0#3 | .err (.device .unescape) => 1#3 | .err (.device .length) => 2#3
      | .err (.device .read) => 3#3 | .err (.device .writeData) => 4#3
      | .err (.device .sendData) => 5#3 | _ => 0#3) ∧
    (rspDescOf r).extractLsb' 6 2 = 0#2 ∧
    (rspDescOf r).extractLsb' 8 8 = (match r with | .ok len => len | _ => 0#8) ∧
    (rspDescOf r).extractLsb' 16 8 = (match r with
      | .err (.device .none) => 0x4E#8 | .err (.device .unescape) => 0x55#8
      | .err (.device .length) => 0x4C#8 | .err (.device .read) => 0x52#8
      | .err (.device .writeData) => 0x57#8 | .err (.device .sendData) => 0x53#8 | _ => 0#8) ∧
    (rspDescOf r).extractLsb' 24 8 = 0#8 ∧
    (∀ e, rspTerrOf r = some e ↔ r = .err (.transport e))

/-- Which channel a phase drives, and with what: in a sending phase TXBUF and its length, in a receiving
phase the number of bytes, in DONE and FAILED the descriptor, transport error and data of RESULT and
RXBUF (R15 to R18, R64, R91; for a message longer than `tx_len` can count, log 30). -/
def Obligations.ChannelSignalsFollowThePhase : Prop :=
  ∀ b : Block,
    (b.reqReady = true ↔ b.phase = .idle) ∧
    (b.rspValid = true ↔ b.phase = .done ∨ b.phase = .failed) ∧
    (b.txValid = true ↔ b.phase = .sendA ∨ b.phase = .sendB ∨ b.phase = .sendF ∨ b.phase = .sendRst) ∧
    (b.rxReqValid = true ↔ b.phase = .waitStatus ∨ b.phase = .waitCount ∨ b.phase = .waitPayload) ∧
    ¬ (b.txValid = true ∧ b.rxReqValid = true) ∧
    (b.txValid = true → b.txData = b.txbuf ∧
      ∀ m, b.txbuf = some m → m.length < 65536 → ∃ len, b.txLen = some len ∧ len.toNat = m.length) ∧
    (b.phase = .waitStatus ∨ b.phase = .waitCount → b.rxCount = some 1#8) ∧
    (b.phase = .waitPayload → b.rxCount = b.count) ∧
    (∀ r, b.rspValid = true → b.result = some r →
      b.rspDesc = some (rspDescOf r) ∧ (∀ e, b.rspTerr = some e ↔ r = .err (.transport e)) ∧
      (∀ k, r = .err k → b.rspData = some []) ∧ (r = .ok 0#8 → b.rspData = some []) ∧
      (∀ len d, r = .ok len → b.rxbuf = some d → len.toNat ≤ d.length →
        b.rspData = some (d.take len.toNat)))

/-! ## Whole-machine properties -/

/-- The invariant holds at reset (R31). -/
def Obligations.ResetStateIsConsistent : Prop :=
  State.reset.Consistent ∧ State.reset.RequestsOk ∧ State.reset.TraceFollowsPlan

/-- Every step from a consistent state leads to a consistent state: each element holds a value in
exactly the phases the spec gives it one, and the value the spec gives (R20 to R30). -/
def Obligations.EveryStepKeepsConsistency : Prop :=
  ∀ s t : State, s.Consistent → step s = .next t → t.Consistent

/-- In every phase of an operation its transactions so far are exactly the first ones its rule lists, in
order. While a register access waits (WAIT_STATUS to WAIT_PAYLOAD) each of them went well. A failed
operation ends with the one transaction that went wrong, all before it having gone well, and RESULT is that
one's failure; a refused request has none. Of SET_FREQ's sends, and of the transactions of an operation in
DONE, only which they were is said, not their outcomes: SET_FREQ goes on after a failed send (R44, R84 to
R90, R92, R101). -/
def Obligations.TransactionsFollowThePlan : Prop :=
  ∀ s t : State, s.Consistent → s.TraceFollowsPlan → step s = .next t → t.TraceFollowsPlan

/-- The table of R90: how many sends and receives a finished operation has made. A delayed READ_REG that
failed made its second send only after an accepted acknowledgment. -/
def Obligations.TransactionsPerOperation : Prop :=
  ∀ (s : State) (l : Latch) (p : List Byte) (sends recvs : Nat), s.Consistent → s.TraceFollowsPlan →
    s.block.latch = some l → s.block.pbuf = some p →
    (sentMessages s.log.trace).length = sends → recvCount s.log.trace = recvs →
    (s.block.phase = .done →
      (l.op = 0x00#8 ∨ l.op = 0x02#8 → sends = 1 ∧ recvs = 1) ∧
      (l.op = 0x01#8 → sends = 1 ∧ recvs = 2) ∧
      (l.op = 0x03#8 → l.delay = 0#32 → sends = 1 ∧ recvs = 3) ∧
      (l.op = 0x03#8 → l.delay ≠ 0#32 → sends = 2 ∧ recvs = 3) ∧
      (l.op = 0x04#8 → sends = 2 ∧ recvs = 0)) ∧
    (s.block.phase = .failed →
      (l.rejected → sends = 0 ∧ recvs = 0) ∧
      (¬ l.rejected →
        (l.op = 0x00#8 ∨ l.op = 0x02#8 → sends = 1 ∧ recvs ≤ 1) ∧
        (l.op = 0x01#8 → sends = 1 ∧ recvs ≤ 2) ∧
        (l.op = 0x03#8 → l.delay = 0#32 → sends = 1 ∧ recvs ≤ 3) ∧
        (l.op = 0x03#8 → l.delay ≠ 0#32 →
          (sends = 1 ∧ recvs ≤ 1) ∨
          (sends = 2 ∧ 1 ≤ recvs ∧ recvs ≤ 3 ∧
            ∃ k a, s.log.trace[1]? = some (.recv k (.ok [a])) ∧ isAccepted a = true))))

/-- From a consistent state with well-formed requests and no codec call waiting, a step always leads
to a next state: no read of a valueless element, no state without a row of R91 (R30, R91). -/
def Obligations.ConsistentStatesNeverStop : Prop :=
  ∀ s : State, s.Consistent → s.RequestsOk → s.env.calls = [] →
    ∃ t, step s = .next t ∧ t.RequestsOk

/-- Every step of a consistent state without a reset or codec call is a row of the transition table
for the event the state offers; without an event nothing happens to the block but the delay timer's
count; and the new phase raises its channel's signals with the table's values (R91). -/
def Obligations.EveryStepIsARowOfTheTable : Prop :=
  ∀ s t : State, s.Consistent → s.NoReset → s.env.calls = [] → step s = .next t →
    (match s.offers with
     | some e => Row s.block e t.block
     | none => t.block = s.block ∨
        (s.block.phase = .delaying ∧ ∃ x, s.block.timer = some x ∧ x ≠ 0#32 ∧
          t.block = { s.block with timer := some (x - 1#32) })) ∧
    (t.block.phase = .sendA ∨ t.block.phase = .sendB ∨ t.block.phase = .sendF ∨
        t.block.phase = .sendRst → t.block.txValid = true ∧ t.block.txData = t.block.txbuf) ∧
    (t.block.phase = .waitStatus ∨ t.block.phase = .waitCount →
      t.block.rxReqValid = true ∧ t.block.rxCount = some 1#8) ∧
    (t.block.phase = .waitPayload → t.block.rxReqValid = true ∧ t.block.rxCount = t.block.count)

/-- Once an operation has failed, no step issues a transport transaction for it: from FAILED the only
ways are to stay, with nothing delivered; to deliver RESULT as the response and return to IDLE; or reset,
which delivers nothing. The trace and the transport's answers and stream stay, but for a reset, which
clears the trace (R88, R102, R103). -/
def Obligations.FailureIsTerminal : Prop :=
  ∀ s t : State, s.block.phase = .failed → step s = .next t →
    ((t.block = s.block ∧ t.log.responses = s.log.responses) ∨
     (t.block = ⟨.idle, none, none, none, none, none, none, none⟩ ∧ s.env.rspReady = true ∧
      ∃ r data, s.block.result = some r ∧ (∀ k, r = .err k → data = []) ∧
        t.log.responses = s.log.responses ++ [⟨rspDescOf r, rspTerrOf r, data⟩]) ∨
     (t.block = ⟨.idle, none, none, none, none, none, none, none⟩ ∧ s.env.resets.head? = some 0 ∧
      t.log.responses = s.log.responses)) ∧
    t.env.tx = s.env.tx ∧ t.env.rx = s.env.rx ∧
    (t.log.trace = s.log.trace ∨ (s.env.resets.head? = some 0 ∧ t.log.trace = [])) ∧
    t.env.reqs = s.env.reqs

/-- A step runs the instruction the state offers: a codec call's, else the presented request's in
IDLE, else the reply byte's in WAIT_STATUS and WAIT_COUNT, each taken from its channel; a pending reset
comes one step nearer (R15, R18, R79, R82, R83). -/
def Obligations.StepRunsTheDecodedInstruction : Prop :=
  ∀ (s : State) (rs : List Nat),
    (s.env.resets = [] ∧ rs = [] ∨ ∃ k rest, s.env.resets = (k + 1) :: rest ∧ rs = k :: rest) →
    (∀ f bs calls i more, s.env.calls = ⟨f, bs⟩ :: calls → decode (.wire f) bs = .ok (i, more) →
      step s = exec i { s with env.resets := rs, env.calls := calls }) ∧
    (∀ v p reqs, s.env.calls = [] → s.block.phase = .idle → s.env.reqs = ⟨v, p⟩ :: reqs →
      step s = exec (decodeDesc v) { s with env.resets := rs, env.reqs := reqs, env.payload := p }) ∧
    (∀ b rx i, s.env.calls = [] → s.block.phase = .waitStatus ∨ s.block.phase = .waitCount →
      s.env.rx = .byte b :: rx → decode .reply [b] = .ok (i, []) →
      step s = exec i { s with env.resets := rs, env.rx := rx })

/-- READ_REG without delay, whole: whatever the operands, the accepted acknowledgment, the accepted
count and the data, six steps from IDLE deliver OK with exactly that data, after one send of the
combined packet and three receives, and the block is IDLE again with the rest of the stream untouched
(R80, R83, R87, R90). -/
def Obligations.ReadRegWithoutDelayDeliversItsData : Prop :=
  ∀ (s : State) (d : ReqFields) (p data : List Byte) (a c : Byte) (reqs : List Request)
    (tx : List SendStatus) (rest : List RxItem),
    s.block = Block.reset → s.env.resets = [] → s.env.calls = [] → s.env.rspReady = true →
    s.env.reqs = ⟨packDesc 0x03#8 d, p⟩ :: reqs → d.delay = 0#32 → s.env.tx = .ok :: tx →
    isAccepted a = true → isAccepted c = true → data.length = c.toNat →
    s.env.rx = [.byte a, .byte c] ++ data.map RxItem.byte ++ rest →
    ∃ t, s.steps 6 = .next t ∧ t.block = Block.reset ∧ t.env.reqs = reqs ∧ t.env.tx = tx ∧
      t.env.rx = rest ∧
      t.log.responses = s.log.responses ++ [⟨c.setWidth 32 <<< 8, none, data⟩] ∧
      t.log.events = s.log.events ++ [⟨0x03#8, .ok c, []⟩] ∧
      t.log.trace = [.send (buildCombined d.dev d.reg d.n) .ok, .recv 1 (.ok [a]), .recv 1 (.ok [c]),
        .recv c.toNat (.ok data)]
end

