-- ==== Sys2Proof/Laws/Decode.lean ====
section
/-! SUPPORT. The descriptor's fields: packing and extracting are inverse, and the decoder names every op
code's row. -/

namespace Sys2Proof

@[simp] theorem descOp_packDesc (op : Byte) (d : ReqFields) : descOp (packDesc op d) = op := by
  simp only [packDesc, descOp]
  ext i hi
  simp only [BitVec.getElem_extractLsb', BitVec.getLsbD_append]
  simp [hi]

@[simp] theorem descFields_packDesc (op : Byte) (d : ReqFields) : descFields (packDesc op d) = d := by
  cases d
  simp only [packDesc, descFields, ReqFields.mk.injEq]
  refine ⟨?_, ?_, ?_, ?_, ?_, ?_, ?_⟩ <;>
  · ext i hi
    simp only [BitVec.getElem_extractLsb', BitVec.getLsbD_append]
    grind

/-- The op codes are the five operations or reserved (R49). -/
theorem opCode_cases (op : Byte) :
    op = 0x00#8 ∨ op = 0x01#8 ∨ op = 0x02#8 ∨ op = 0x03#8 ∨ op = 0x04#8 ∨ 4 < op.toNat := by
  have h : ∀ op : BitVec 8, op = 0x00#8 ∨ op = 0x01#8 ∨ op = 0x02#8 ∨ op = 0x03#8 ∨ op = 0x04#8 ∨
    4 < op.toNat := by decide
  exact h op

theorem decodeDesc_writeRaw {v : Desc} (h : descOp v = 0x00#8) :
    decodeDesc v = .writeRaw (descFields v) := by
  simp [decodeDesc, h]

theorem decodeDesc_readRaw {v : Desc} (h : descOp v = 0x01#8) :
    decodeDesc v = .readRaw (descFields v) := by
  simp [decodeDesc, h]

theorem decodeDesc_writeReg {v : Desc} (h : descOp v = 0x02#8) :
    decodeDesc v = .writeReg (descFields v) := by
  simp [decodeDesc, h]

theorem decodeDesc_readReg {v : Desc} (h : descOp v = 0x03#8) :
    decodeDesc v = .readReg (descFields v) := by
  simp [decodeDesc, h]

theorem decodeDesc_setFreq {v : Desc} (h : descOp v = 0x04#8) :
    decodeDesc v = .setFreq (descFields v) := by
  simp [decodeDesc, h]

end Sys2Proof
end

