-- ==== Sys2Proof/Laws/State.lean ====
section
/-! SUPPORT. What each update of the state does to each field: true by rfl, so that no later proof
unfolds a record update. -/

namespace Sys2Proof.Machine.State

/-! ## raise -/

@[simp] theorem raise_block_phase (k : BusError) (s : State) : (s.raise k).block.phase = .failed := rfl
@[simp] theorem raise_block_latch (k : BusError) (s : State) : (s.raise k).block.latch = s.block.latch := rfl
@[simp] theorem raise_block_pbuf (k : BusError) (s : State) : (s.raise k).block.pbuf = s.block.pbuf := rfl
@[simp] theorem raise_block_txbuf (k : BusError) (s : State) : (s.raise k).block.txbuf = s.block.txbuf := rfl
@[simp] theorem raise_block_count (k : BusError) (s : State) : (s.raise k).block.count = s.block.count := rfl
@[simp] theorem raise_block_rxbuf (k : BusError) (s : State) : (s.raise k).block.rxbuf = s.block.rxbuf := rfl
@[simp] theorem raise_block_result (k : BusError) (s : State) : (s.raise k).block.result = some (.err k) := rfl
@[simp] theorem raise_block_timer (k : BusError) (s : State) : (s.raise k).block.timer = s.block.timer := rfl
@[simp] theorem raise_env (k : BusError) (s : State) : (s.raise k).env = s.env := rfl
@[simp] theorem raise_log (k : BusError) (s : State) : (s.raise k).log = s.log := rfl
@[simp] theorem raise_sends (k : BusError) (s : State) : (s.raise k).sends = s.sends := rfl
@[simp] theorem raise_codecOut (k : BusError) (s : State) : (s.raise k).codecOut = s.codecOut := rfl
@[simp] theorem raise_draws (k : BusError) (s : State) : (s.raise k).draws = s.draws := rfl

/-! ## respondOk -/

@[simp] theorem respondOk_block_phase (len : Byte) (s : State) : (s.respondOk len).block.phase = .done := rfl
@[simp] theorem respondOk_block_latch (len : Byte) (s : State) : (s.respondOk len).block.latch = s.block.latch := rfl
@[simp] theorem respondOk_block_pbuf (len : Byte) (s : State) : (s.respondOk len).block.pbuf = s.block.pbuf := rfl
@[simp] theorem respondOk_block_txbuf (len : Byte) (s : State) : (s.respondOk len).block.txbuf = s.block.txbuf := rfl
@[simp] theorem respondOk_block_count (len : Byte) (s : State) : (s.respondOk len).block.count = s.block.count := rfl
@[simp] theorem respondOk_block_rxbuf (len : Byte) (s : State) : (s.respondOk len).block.rxbuf = s.block.rxbuf := rfl
@[simp] theorem respondOk_block_result (len : Byte) (s : State) : (s.respondOk len).block.result = some (.ok len) := rfl
@[simp] theorem respondOk_block_timer (len : Byte) (s : State) : (s.respondOk len).block.timer = s.block.timer := rfl
@[simp] theorem respondOk_env (len : Byte) (s : State) : (s.respondOk len).env = s.env := rfl
@[simp] theorem respondOk_log (len : Byte) (s : State) : (s.respondOk len).log = s.log := rfl
@[simp] theorem respondOk_sends (len : Byte) (s : State) : (s.respondOk len).sends = s.sends := rfl
@[simp] theorem respondOk_codecOut (len : Byte) (s : State) : (s.respondOk len).codecOut = s.codecOut := rfl
@[simp] theorem respondOk_draws (len : Byte) (s : State) : (s.respondOk len).draws = s.draws := rfl

/-! ## latchRequest -/

@[simp] theorem latchRequest_block_phase (op : Byte) (d : ReqFields) (s : State) : (s.latchRequest op d).block.phase = s.block.phase := rfl
@[simp] theorem latchRequest_block_latch (op : Byte) (d : ReqFields) (s : State) : (s.latchRequest op d).block.latch = some (latchOf op d) := rfl
@[simp] theorem latchRequest_block_pbuf (op : Byte) (d : ReqFields) (s : State) : (s.latchRequest op d).block.pbuf = some (s.env.payload.take d.plen.toNat) := rfl
@[simp] theorem latchRequest_block_txbuf (op : Byte) (d : ReqFields) (s : State) : (s.latchRequest op d).block.txbuf = s.block.txbuf := rfl
@[simp] theorem latchRequest_block_count (op : Byte) (d : ReqFields) (s : State) : (s.latchRequest op d).block.count = s.block.count := rfl
@[simp] theorem latchRequest_block_rxbuf (op : Byte) (d : ReqFields) (s : State) : (s.latchRequest op d).block.rxbuf = s.block.rxbuf := rfl
@[simp] theorem latchRequest_block_result (op : Byte) (d : ReqFields) (s : State) : (s.latchRequest op d).block.result = s.block.result := rfl
@[simp] theorem latchRequest_block_timer (op : Byte) (d : ReqFields) (s : State) : (s.latchRequest op d).block.timer = s.block.timer := rfl
@[simp] theorem latchRequest_env (op : Byte) (d : ReqFields) (s : State) : (s.latchRequest op d).env = s.env := rfl
@[simp] theorem latchRequest_log_trace (op : Byte) (d : ReqFields) (s : State) : (s.latchRequest op d).log.trace = [] := rfl
@[simp] theorem latchRequest_log_responses (op : Byte) (d : ReqFields) (s : State) : (s.latchRequest op d).log.responses = s.log.responses := rfl
@[simp] theorem latchRequest_log_events (op : Byte) (d : ReqFields) (s : State) : (s.latchRequest op d).log.events = s.log.events := rfl
@[simp] theorem latchRequest_sends (op : Byte) (d : ReqFields) (s : State) : (s.latchRequest op d).sends = [] := rfl
@[simp] theorem latchRequest_codecOut (op : Byte) (d : ReqFields) (s : State) : (s.latchRequest op d).codecOut = s.codecOut := rfl
@[simp] theorem latchRequest_draws (op : Byte) (d : ReqFields) (s : State) : (s.latchRequest op d).draws = s.draws := rfl

/-! ## holdRequest -/

@[simp] theorem holdRequest_block (op : Byte) (d : ReqFields) (s : State) : (s.holdRequest op d).block = s.block := rfl
@[simp] theorem holdRequest_env_resets (op : Byte) (d : ReqFields) (s : State) : (s.holdRequest op d).env.resets = s.env.resets := rfl
@[simp] theorem holdRequest_env_calls (op : Byte) (d : ReqFields) (s : State) : (s.holdRequest op d).env.calls = s.env.calls := rfl
@[simp] theorem holdRequest_env_reqs (op : Byte) (d : ReqFields) (s : State) : (s.holdRequest op d).env.reqs = ⟨packDesc op d, s.env.payload⟩ :: s.env.reqs := rfl
@[simp] theorem holdRequest_env_payload (op : Byte) (d : ReqFields) (s : State) : (s.holdRequest op d).env.payload = s.env.payload := rfl
@[simp] theorem holdRequest_env_rspReady (op : Byte) (d : ReqFields) (s : State) : (s.holdRequest op d).env.rspReady = s.env.rspReady := rfl
@[simp] theorem holdRequest_env_tx (op : Byte) (d : ReqFields) (s : State) : (s.holdRequest op d).env.tx = s.env.tx := rfl
@[simp] theorem holdRequest_env_rx (op : Byte) (d : ReqFields) (s : State) : (s.holdRequest op d).env.rx = s.env.rx := rfl
@[simp] theorem holdRequest_env_lags (op : Byte) (d : ReqFields) (s : State) : (s.holdRequest op d).env.lags = s.env.lags := rfl
@[simp] theorem holdRequest_log (op : Byte) (d : ReqFields) (s : State) : (s.holdRequest op d).log = s.log := rfl
@[simp] theorem holdRequest_sends (op : Byte) (d : ReqFields) (s : State) : (s.holdRequest op d).sends = s.sends := rfl
@[simp] theorem holdRequest_codecOut (op : Byte) (d : ReqFields) (s : State) : (s.holdRequest op d).codecOut = s.codecOut := rfl
@[simp] theorem holdRequest_draws (op : Byte) (d : ReqFields) (s : State) : (s.holdRequest op d).draws = s.draws := rfl

/-! ## startSend -/

@[simp] theorem startSend_block_phase (p : Phase) (m : List Byte) (s : State) : (s.startSend p m).block.phase = p := rfl
@[simp] theorem startSend_block_latch (p : Phase) (m : List Byte) (s : State) : (s.startSend p m).block.latch = s.block.latch := rfl
@[simp] theorem startSend_block_pbuf (p : Phase) (m : List Byte) (s : State) : (s.startSend p m).block.pbuf = s.block.pbuf := rfl
@[simp] theorem startSend_block_txbuf (p : Phase) (m : List Byte) (s : State) : (s.startSend p m).block.txbuf = some m := rfl
@[simp] theorem startSend_block_count (p : Phase) (m : List Byte) (s : State) : (s.startSend p m).block.count = s.block.count := rfl
@[simp] theorem startSend_block_rxbuf (p : Phase) (m : List Byte) (s : State) : (s.startSend p m).block.rxbuf = s.block.rxbuf := rfl
@[simp] theorem startSend_block_result (p : Phase) (m : List Byte) (s : State) : (s.startSend p m).block.result = s.block.result := rfl
@[simp] theorem startSend_block_timer (p : Phase) (m : List Byte) (s : State) : (s.startSend p m).block.timer = s.block.timer := rfl
@[simp] theorem startSend_env (p : Phase) (m : List Byte) (s : State) : (s.startSend p m).env = s.env := rfl
@[simp] theorem startSend_log (p : Phase) (m : List Byte) (s : State) : (s.startSend p m).log = s.log := rfl
@[simp] theorem startSend_sends (p : Phase) (m : List Byte) (s : State) : (s.startSend p m).sends = s.sends := rfl
@[simp] theorem startSend_codecOut (p : Phase) (m : List Byte) (s : State) : (s.startSend p m).codecOut = s.codecOut := rfl
@[simp] theorem startSend_draws (p : Phase) (m : List Byte) (s : State) : (s.startSend p m).draws = s.draws := rfl

/-! ## toPhase -/

@[simp] theorem toPhase_block_phase (p : Phase) (s : State) : (s.toPhase p).block.phase = p := rfl
@[simp] theorem toPhase_block_latch (p : Phase) (s : State) : (s.toPhase p).block.latch = s.block.latch := rfl
@[simp] theorem toPhase_block_pbuf (p : Phase) (s : State) : (s.toPhase p).block.pbuf = s.block.pbuf := rfl
@[simp] theorem toPhase_block_txbuf (p : Phase) (s : State) : (s.toPhase p).block.txbuf = s.block.txbuf := rfl
@[simp] theorem toPhase_block_count (p : Phase) (s : State) : (s.toPhase p).block.count = s.block.count := rfl
@[simp] theorem toPhase_block_rxbuf (p : Phase) (s : State) : (s.toPhase p).block.rxbuf = s.block.rxbuf := rfl
@[simp] theorem toPhase_block_result (p : Phase) (s : State) : (s.toPhase p).block.result = s.block.result := rfl
@[simp] theorem toPhase_block_timer (p : Phase) (s : State) : (s.toPhase p).block.timer = s.block.timer := rfl
@[simp] theorem toPhase_env (p : Phase) (s : State) : (s.toPhase p).env = s.env := rfl
@[simp] theorem toPhase_log (p : Phase) (s : State) : (s.toPhase p).log = s.log := rfl
@[simp] theorem toPhase_sends (p : Phase) (s : State) : (s.toPhase p).sends = s.sends := rfl
@[simp] theorem toPhase_codecOut (p : Phase) (s : State) : (s.toPhase p).codecOut = s.codecOut := rfl
@[simp] theorem toPhase_draws (p : Phase) (s : State) : (s.toPhase p).draws = s.draws := rfl

/-! ## record -/

@[simp] theorem record_block (t : Transaction) (s : State) : (s.record t).block = s.block := rfl
@[simp] theorem record_env (t : Transaction) (s : State) : (s.record t).env = s.env := rfl
@[simp] theorem record_log_trace (t : Transaction) (s : State) : (s.record t).log.trace = s.log.trace ++ [t] := rfl
@[simp] theorem record_log_responses (t : Transaction) (s : State) : (s.record t).log.responses = s.log.responses := rfl
@[simp] theorem record_log_events (t : Transaction) (s : State) : (s.record t).log.events = s.log.events := rfl
@[simp] theorem record_sends (t : Transaction) (s : State) : (s.record t).sends = s.sends := rfl
@[simp] theorem record_codecOut (t : Transaction) (s : State) : (s.record t).codecOut = s.codecOut := rfl
@[simp] theorem record_draws (t : Transaction) (s : State) : (s.record t).draws = s.draws := rfl

/-! ## setRx -/

@[simp] theorem setRx_block (rx : List RxItem) (s : State) : (s.setRx rx).block = s.block := rfl
@[simp] theorem setRx_env_resets (rx : List RxItem) (s : State) : (s.setRx rx).env.resets = s.env.resets := rfl
@[simp] theorem setRx_env_calls (rx : List RxItem) (s : State) : (s.setRx rx).env.calls = s.env.calls := rfl
@[simp] theorem setRx_env_reqs (rx : List RxItem) (s : State) : (s.setRx rx).env.reqs = s.env.reqs := rfl
@[simp] theorem setRx_env_payload (rx : List RxItem) (s : State) : (s.setRx rx).env.payload = s.env.payload := rfl
@[simp] theorem setRx_env_rspReady (rx : List RxItem) (s : State) : (s.setRx rx).env.rspReady = s.env.rspReady := rfl
@[simp] theorem setRx_env_tx (rx : List RxItem) (s : State) : (s.setRx rx).env.tx = s.env.tx := rfl
@[simp] theorem setRx_env_rx (rx : List RxItem) (s : State) : (s.setRx rx).env.rx = rx := rfl
@[simp] theorem setRx_env_lags (rx : List RxItem) (s : State) : (s.setRx rx).env.lags = s.env.lags := rfl
@[simp] theorem setRx_log (rx : List RxItem) (s : State) : (s.setRx rx).log = s.log := rfl
@[simp] theorem setRx_sends (rx : List RxItem) (s : State) : (s.setRx rx).sends = s.sends := rfl
@[simp] theorem setRx_codecOut (rx : List RxItem) (s : State) : (s.setRx rx).codecOut = s.codecOut := rfl
@[simp] theorem setRx_draws (rx : List RxItem) (s : State) : (s.setRx rx).draws = s.draws := rfl

/-! ## unreadByte -/

@[simp] theorem unreadByte_block (b : Byte) (s : State) : (s.unreadByte b).block = s.block := rfl
@[simp] theorem unreadByte_env_resets (b : Byte) (s : State) : (s.unreadByte b).env.resets = s.env.resets := rfl
@[simp] theorem unreadByte_env_calls (b : Byte) (s : State) : (s.unreadByte b).env.calls = s.env.calls := rfl
@[simp] theorem unreadByte_env_reqs (b : Byte) (s : State) : (s.unreadByte b).env.reqs = s.env.reqs := rfl
@[simp] theorem unreadByte_env_payload (b : Byte) (s : State) : (s.unreadByte b).env.payload = s.env.payload := rfl
@[simp] theorem unreadByte_env_rspReady (b : Byte) (s : State) : (s.unreadByte b).env.rspReady = s.env.rspReady := rfl
@[simp] theorem unreadByte_env_tx (b : Byte) (s : State) : (s.unreadByte b).env.tx = s.env.tx := rfl
@[simp] theorem unreadByte_env_rx (b : Byte) (s : State) : (s.unreadByte b).env.rx = .byte b :: s.env.rx := rfl
@[simp] theorem unreadByte_env_lags (b : Byte) (s : State) : (s.unreadByte b).env.lags = s.env.lags := rfl
@[simp] theorem unreadByte_log (b : Byte) (s : State) : (s.unreadByte b).log = s.log := rfl
@[simp] theorem unreadByte_sends (b : Byte) (s : State) : (s.unreadByte b).sends = s.sends := rfl
@[simp] theorem unreadByte_codecOut (b : Byte) (s : State) : (s.unreadByte b).codecOut = s.codecOut := rfl
@[simp] theorem unreadByte_draws (b : Byte) (s : State) : (s.unreadByte b).draws = s.draws := rfl

/-! ## popTx -/

@[simp] theorem popTx_block (s : State) : s.popTx.block = s.block := rfl
@[simp] theorem popTx_env_resets (s : State) : s.popTx.env.resets = s.env.resets := rfl
@[simp] theorem popTx_env_calls (s : State) : s.popTx.env.calls = s.env.calls := rfl
@[simp] theorem popTx_env_reqs (s : State) : s.popTx.env.reqs = s.env.reqs := rfl
@[simp] theorem popTx_env_payload (s : State) : s.popTx.env.payload = s.env.payload := rfl
@[simp] theorem popTx_env_rspReady (s : State) : s.popTx.env.rspReady = s.env.rspReady := rfl
@[simp] theorem popTx_env_tx (s : State) : s.popTx.env.tx = s.env.tx.tail := rfl
@[simp] theorem popTx_env_rx (s : State) : s.popTx.env.rx = s.env.rx := rfl
@[simp] theorem popTx_env_lags (s : State) : s.popTx.env.lags = s.env.lags := rfl
@[simp] theorem popTx_log (s : State) : s.popTx.log = s.log := rfl
@[simp] theorem popTx_sends (s : State) : s.popTx.sends = s.sends := rfl
@[simp] theorem popTx_codecOut (s : State) : s.popTx.codecOut = s.codecOut := rfl
@[simp] theorem popTx_draws (s : State) : s.popTx.draws = s.draws := rfl

/-! ## emit -/

@[simp] theorem emit_block (bs : List Byte) (s : State) : (s.emit bs).block = s.block := rfl
@[simp] theorem emit_env (bs : List Byte) (s : State) : (s.emit bs).env = s.env := rfl
@[simp] theorem emit_log (bs : List Byte) (s : State) : (s.emit bs).log = s.log := rfl
@[simp] theorem emit_sends (bs : List Byte) (s : State) : (s.emit bs).sends = s.sends := rfl
@[simp] theorem emit_codecOut (bs : List Byte) (s : State) : (s.emit bs).codecOut = s.codecOut ++ bs := rfl
@[simp] theorem emit_draws (bs : List Byte) (s : State) : (s.emit bs).draws = s.draws := rfl

/-! ## retire and resetStep -/

@[simp] theorem retire_block (l : Latch) (r : Result) (d : List Byte) (s : State) : (s.retire l r d).block = Block.reset := rfl
@[simp] theorem retire_sends (l : Latch) (r : Result) (d : List Byte) (s : State) : (s.retire l r d).sends = [] := rfl
@[simp] theorem retire_codecOut (l : Latch) (r : Result) (d : List Byte) (s : State) : (s.retire l r d).codecOut = s.codecOut := rfl
@[simp] theorem retire_draws (l : Latch) (r : Result) (d : List Byte) (s : State) : (s.retire l r d).draws = s.draws := rfl
@[simp] theorem retire_env (l : Latch) (r : Result) (d : List Byte) (s : State) : (s.retire l r d).env = s.env := rfl
@[simp] theorem retire_trace (l : Latch) (r : Result) (d : List Byte) (s : State) : (s.retire l r d).log.trace = s.log.trace := rfl

@[simp] theorem resetStep_block (s : State) : s.resetStep.block = Block.reset := rfl
@[simp] theorem resetStep_sends (s : State) : s.resetStep.sends = [] := rfl
@[simp] theorem resetStep_codecOut (s : State) : s.resetStep.codecOut = [] := rfl
@[simp] theorem resetStep_trace (s : State) : s.resetStep.log.trace = [] := rfl
@[simp] theorem resetStep_responses (s : State) : s.resetStep.log.responses = s.log.responses := rfl
@[simp] theorem resetStep_events (s : State) : s.resetStep.log.events = s.log.events := rfl
@[simp] theorem resetStep_reqs (s : State) : s.resetStep.env.reqs = s.env.reqs := rfl
@[simp] theorem resetStep_calls (s : State) : s.resetStep.env.calls = s.env.calls := rfl
@[simp] theorem resetStep_resets (s : State) : s.resetStep.env.resets = s.env.resets := rfl
@[simp] theorem resetStep_rspReady (s : State) : s.resetStep.env.rspReady = s.env.rspReady := rfl
@[simp] theorem resetStep_lags (s : State) : s.resetStep.env.lags = s.env.lags := rfl

/-! ## The two failures of a transaction are failure entries -/

@[simp] theorem sendFail_eq (e : TErr) (s : State) : s.sendFail e = s.raise (.transport e) := rfl
@[simp] theorem rxFail_eq (e : TErr) (s : State) : s.rxFail e = s.raise (recvError e) := rfl

end Sys2Proof.Machine.State
end

