-- ==== Sys2Proof/Laws/Ops.lean ====
section
/-! SUPPORT. One lemma for each shared operation: everything it can do. -/

namespace Sys2Proof.Machine

/-! ## Codec -/

theorem errorKindOf_errByte (k : ErrorKind) : errorKindOf (errByte k) = some k := by
  cases k <;> decide

theorem errByte_ne_zero (k : ErrorKind) : errByte k ≠ 0#8 := by
  cases k <;> decide

theorem errByte_of_errorKindOf {b : Byte} {k : ErrorKind} (h : errorKindOf b = some k) :
    errByte k = b := by
  unfold errorKindOf at h
  repeat' split at h
  all_goals first | (cases h; simp_all [errByte]) | cases h

theorem decodeStatus_errByte (k : ErrorKind) : decodeStatus (errByte k) = .err k := by
  simp [decodeStatus, errByte_ne_zero, errorKindOf_errByte]

theorem decodeCount_errByte (k : ErrorKind) : decodeCount (errByte k) = .err k := by
  simp [decodeCount, errByte_ne_zero, errorKindOf_errByte]

theorem isAccepted_iff {b : Byte} : isAccepted b = true ↔ b ≠ 0#8 ∧ errorKindOf b = none := by
  simp [isAccepted]

theorem decodeStatus_accepted {b : Byte} (h : isAccepted b = true) : decodeStatus b = .ok := by
  simp [decodeStatus, isAccepted_iff.1 h]

theorem decodeCount_accepted {b : Byte} (h : isAccepted b = true) : decodeCount b = .count b := by
  simp [decodeCount, isAccepted_iff.1 h]

/-- Every byte is zero, an error code, or accepted (R62). -/
theorem reply_class (b : Byte) : b = 0#8 ∨ (∃ k, b = errByte k) ∨ isAccepted b = true := by
  by_cases h0 : b = 0#8
  · exact .inl h0
  · cases hk : errorKindOf b with
    | some k => exact .inr (.inl ⟨k, (errByte_of_errorKindOf hk).symm⟩)
    | none => exact .inr (.inr (isAccepted_iff.2 ⟨h0, hk⟩))

/-- Each reply row's meaning is the reply step of its byte. -/
theorem exec_decodeReplyByte (b : Byte) (s : State) : exec (decodeReplyByte b) s = s.replyStep b := by
  unfold decodeReplyByte
  split
  · next h => subst h; rfl
  · cases hk : errorKindOf b with
    | none => rfl
    | some k => cases k <;> (have := errByte_of_errorKindOf hk; subst this; rfl)

/-! ## Receive -/

@[simp] theorem receive_zero (rx : List RxItem) : receive 0 rx = .ok [] rx := by
  cases rx <;> rfl

@[simp] theorem receive_nil (k : Nat) : receive (k + 1) [] = .pending := rfl

@[simp] theorem receive_fail (k : Nat) (e : TErr) (rest : List RxItem) :
    receive (k + 1) (.fail e :: rest) = .err e rest := rfl

@[simp] theorem receive_one_byte (b : Byte) (rest : List RxItem) :
    receive 1 (.byte b :: rest) = .ok [b] rest := by
  simp [receive]

/-- The three ways a one-byte receive stands. -/
theorem receive_one_cases (rx : List RxItem) :
    (rx = [] ∧ receive 1 rx = .pending) ∨
    (∃ b rest, rx = .byte b :: rest ∧ receive 1 rx = .ok [b] rest) ∨
    (∃ e rest, rx = .fail e :: rest ∧ receive 1 rx = .err e rest) := by
  match rx with
  | [] => simp
  | .byte b :: rest => simp
  | .fail e :: rest => simp

/-! ## Payload reads -/

theorem memRead_zero_eq {buf : List Byte} {n : Nat} (h : n ≤ buf.length) :
    memRead (some buf) 0 n = some (buf.take n) := by
  simp [memRead, h]

theorem memRead_zero_some {buf : Option (List Byte)} {n : Nat} {p : List Byte}
    (h : memRead buf 0 n = some p) : ∃ q, buf = some q ∧ n ≤ q.length ∧ p = q.take n := by
  cases buf with
  | none => simp [memRead] at h
  | some q =>
    simp only [memRead, Nat.zero_add, List.drop_zero] at h
    split at h
    · next hn => exact ⟨q, rfl, hn, by simpa using h.symm⟩
    · cases h

/-! ## Send completion -/

/-- What a send completion can do: wait, fault for want of a message, or act on the outcome. -/
theorem onSendDone_cases (k : SendStatus → State → Out) (s : State) :
    (s.env.tx = [] ∧ s.onSendDone k = .next s) ∨
    (∃ st rest, s.env.tx = st :: rest ∧ s.block.txbuf = none ∧
      s.onSendDone k = .fault (.absent .txbuf)) ∨
    (∃ st rest m, s.env.tx = st :: rest ∧ s.block.txbuf = some m ∧
      s.onSendDone k = k st (s.popTx.record (.send m st))) := by
  unfold State.onSendDone
  cases htx : s.env.tx with
  | nil => exact .inl ⟨rfl, rfl⟩
  | cons st rest =>
    cases hm : s.block.txbuf with
    | none => exact .inr (.inl ⟨st, rest, rfl, rfl, rfl⟩)
    | some m => exact .inr (.inr ⟨st, rest, m, rfl, rfl, rfl⟩)

/-! ## Status and count steps -/

theorem afterStatus_write {s : State} {l : Latch} (hl : s.block.latch = some l)
    (h : l.op = 0x00#8 ∨ l.op = 0x02#8) : s.afterStatus = .next (s.respondOk 0#8) := by
  simp [State.afterStatus, hl, h]

theorem afterStatus_readReg {s : State} {l : Latch} (hl : s.block.latch = some l)
    (h : l.op = 0x03#8) :
    s.afterStatus = if l.delay = 0#32 then .next (s.toPhase .waitCount)
      else .next { s with block.timer := some l.delay, block.phase := .delaying } := by
  simp [State.afterStatus, hl, h]

theorem statusStep_zero (s : State) :
    s.statusStep 0#8 = .next ((s.record (.recv 1 (.ok [0#8]))).raise .timeout) := rfl

theorem statusStep_err (k : ErrorKind) (s : State) :
    s.statusStep (errByte k) = .next ((s.record (.recv 1 (.ok [errByte k]))).raise (.device k)) := by
  simp [State.statusStep, decodeStatus_errByte]

theorem statusStep_accepted {b : Byte} (h : isAccepted b = true) (s : State) :
    s.statusStep b = (s.record (.recv 1 (.ok [b]))).afterStatus := by
  simp [State.statusStep, decodeStatus_accepted h]

theorem countStep_zero (s : State) :
    s.countStep 0#8 = .next ((s.record (.recv 1 (.ok [0#8]))).raise .timeout) := rfl

theorem countStep_err (k : ErrorKind) (s : State) :
    s.countStep (errByte k) = .next ((s.record (.recv 1 (.ok [errByte k]))).raise (.device k)) := by
  simp [State.countStep, decodeCount_errByte]

theorem countStep_accepted {b : Byte} (h : isAccepted b = true) (s : State) :
    s.countStep b = .next { s.record (.recv 1 (.ok [b])) with
      block.count := some b, block.phase := .waitPayload } := by
  simp [State.countStep, decodeCount_accepted h]

theorem replyStep_waitStatus {s : State} (h : s.block.phase = .waitStatus) (b : Byte) :
    s.replyStep b = s.statusStep b := by
  simp [State.replyStep, h]

theorem replyStep_waitCount {s : State} (h : s.block.phase = .waitCount) (b : Byte) :
    s.replyStep b = s.countStep b := by
  simp [State.replyStep, h]

theorem replyStep_other {s : State} (h1 : s.block.phase ≠ .waitStatus)
    (h2 : s.block.phase ≠ .waitCount) (b : Byte) : s.replyStep b = .next (s.unreadByte b) := by
  unfold State.replyStep
  split <;> simp_all

/-! ## The step -/

theorem resetDue_later_of_nil {s : State} (h : s.env.resets = []) : s.resetDue = .later s := by
  simp [State.resetDue, h]

/-- Whether or not a reset comes nearer, the rest of the state is the same. -/
theorem resetDue_cases (s : State) :
    (∃ rest, s.env.resets = 0 :: rest ∧ s.resetDue = .now { s with env.resets := rest }) ∨
    (∃ rs, s.env.resets.head? ≠ some 0 ∧ s.resetDue = .later { s with env.resets := rs }) := by
  unfold State.resetDue
  match h : s.env.resets with
  | [] =>
    have keep : ({ s with env.resets := [] } : State) = s := by rw [← h]
    exact .inr ⟨[], by simp, by rw [keep]⟩
  | 0 :: rest => exact .inl ⟨rest, rfl, rfl⟩
  | (k + 1) :: rest => exact .inr ⟨k :: rest, by simp, rfl⟩

theorem step_of_nil {s : State} (h : s.env.resets = []) : step s = s.work := by
  simp [step, resetDue_later_of_nil h]

theorem work_instr {s t : State} {i : Instr} (h : s.fetch = .instr i t) : s.work = exec i t := by
  simp [State.work, h]

theorem work_nothing {s : State} (h : s.fetch = .nothing) : s.work = s.agentStep := by
  simp [State.work, h]

theorem fetch_call {s : State} {c : CodecCall} {rest : List CodecCall} (h : s.env.calls = c :: rest) :
    s.fetch = s.fetchCall c := by
  simp [State.fetch, h]

/-- Without codec calls, what a state offers to run depends on its phase alone. -/
theorem fetch_no_call {s : State} (h : s.env.calls = []) :
    s.fetch = match s.block.phase with
      | .idle => s.fetchRequest
      | .waitStatus | .waitCount => s.fetchReply
      | _ => .nothing := by
  simp only [State.fetch, h]
  cases s.block.phase <;> rfl

end Sys2Proof.Machine
end

