-- ==== Sys2Proof/Laws/PerInstr.lean ====
section
/-! SUPPORT. Per-instruction statements: the size of an instruction's encoding (R48, R52, R60, R62). -/

namespace Sys2Proof.Laws.EncodedSize

/-- The bytes the spec gives an instruction: 16 for a descriptor (R48), 1 or 2 for a tag (R52), 4, 6 or
7 and the payload for a segment (R60), 1 for a reply (R62). -/
def size : Instr → Nat
  | .writeRaw _ | .readRaw _ | .writeReg _ | .readReg _ | .setFreq _ | .reserved05 _
  | .reserved06 _ _ | .reserved08 _ _ | .reserved10 _ _ | .reserved20 _ _ | .reserved40 _ _
  | .reserved80 _ _ => 16
  | .setAddress _ | .setLength _ => 2
  | .packetKind | .setFrequency | .write | .writeRestart | .read | .readRestart => 1
  | .segRawWrite _ p => 6 + p.length
  | .segRegWrite _ _ p => 7 + p.length
  | .segAddrRead _ _ => 6
  | .segWriteRestart _ _ => 7
  | .segReadFollow _ => 4
  | .replyZero | .errNone | .errUnescape | .errLength | .errRead | .errWriteData | .errSendData
  | .replyAccept _ => 1

/-- The encoding has the size the spec gives it. -/
def Statement (i : Instr) : Prop := (encode i).length = size i

theorem descBytes_length (v : Desc) : (descBytes v).length = 16 := by
  simp [descBytes]

theorem writeRaw (d : ReqFields) : Statement (.writeRaw d) := descBytes_length _
theorem readRaw (d : ReqFields) : Statement (.readRaw d) := descBytes_length _
theorem writeReg (d : ReqFields) : Statement (.writeReg d) := descBytes_length _
theorem readReg (d : ReqFields) : Statement (.readReg d) := descBytes_length _
theorem setFreq (d : ReqFields) : Statement (.setFreq d) := descBytes_length _
theorem reserved05 (d : ReqFields) : Statement (.reserved05 d) := descBytes_length _
theorem reserved06 (lo : BitVec 1) (d : ReqFields) : Statement (.reserved06 lo d) := descBytes_length _
theorem reserved08 (lo : BitVec 3) (d : ReqFields) : Statement (.reserved08 lo d) := descBytes_length _
theorem reserved10 (lo : BitVec 4) (d : ReqFields) : Statement (.reserved10 lo d) := descBytes_length _
theorem reserved20 (lo : BitVec 5) (d : ReqFields) : Statement (.reserved20 lo d) := descBytes_length _
theorem reserved40 (lo : BitVec 6) (d : ReqFields) : Statement (.reserved40 lo d) := descBytes_length _
theorem reserved80 (lo : BitVec 7) (d : ReqFields) : Statement (.reserved80 lo d) := descBytes_length _
theorem packetKind : Statement .packetKind := rfl
theorem setAddress (dev : Byte) : Statement (.setAddress dev) := rfl
theorem setLength (len : Byte) : Statement (.setLength len) := rfl
theorem setFrequency : Statement .setFrequency := rfl
theorem write : Statement .write := rfl
theorem writeRestart : Statement .writeRestart := rfl
theorem read : Statement .read := rfl
theorem readRestart : Statement .readRestart := rfl
theorem segRawWrite (dev : Byte) (payload : List Byte) : Statement (.segRawWrite dev payload) := by
  simp [Statement, size, encode, buildWrite, addressedSegment]; omega
theorem segRegWrite (dev reg : Byte) (payload : List Byte) : Statement (.segRegWrite dev reg payload) := by
  simp [Statement, size, encode, buildWriteRegister, addressedSegment]; omega
theorem segAddrRead (dev n : Byte) : Statement (.segAddrRead dev n) := rfl
theorem segWriteRestart (dev reg : Byte) : Statement (.segWriteRestart dev reg) := rfl
theorem segReadFollow (n : Byte) : Statement (.segReadFollow n) := rfl
theorem replyZero : Statement .replyZero := rfl
theorem errNone : Statement .errNone := rfl
theorem errUnescape : Statement .errUnescape := rfl
theorem errLength : Statement .errLength := rfl
theorem errRead : Statement .errRead := rfl
theorem errWriteData : Statement .errWriteData := rfl
theorem errSendData : Statement .errSendData := rfl
theorem replyAccept (b : Byte) : Statement (.replyAccept b) := rfl

end Sys2Proof.Laws.EncodedSize
end

