-- ==== Sys2Proof/Laws/Request.lean ====
section
/-! SUPPORT. The request step once and for all: what the execution of any descriptor can do in IDLE. -/

namespace Sys2Proof.Machine

theorem lenCheckRaw_pass {n : Half} (h : n.toNat ≤ 255) : lenCheckRaw n = .pass := by
  simp [lenCheckRaw, Config.lenMax, h]

theorem lenCheckRaw_protocol {n : Half} (h : 255 < n.toNat) : lenCheckRaw n = .protocol := by
  simp only [lenCheckRaw, Config.lenMax, gt_iff_lt, h, if_true]

theorem lenCheckReg_pass {n : Half} (h : n.toNat ≤ 254) : lenCheckReg n = .pass := by
  simp only [lenCheckReg, Config.lenMax, gt_iff_lt]; rw [if_neg (by omega)]

theorem lenCheckReg_protocol {n : Half} (h : 254 < n.toNat) : lenCheckReg n = .protocol := by
  simp only [lenCheckReg, Config.lenMax, gt_iff_lt]; rw [if_pos (by omega)]

theorem rejectReserved_idle {s : State} (h : s.block.phase = .idle) (op : Byte) (d : ReqFields) :
    s.rejectReserved op d = .next ((s.latchRequest op d).raise .protocol) := by
  simp [State.rejectReserved, h]

/-- A descriptor with a reserved op code runs the shared reserved step with that op code. -/
theorem exec_reserved {v : Desc} (h : 4 < (descOp v).toNat) (s : State) :
    exec (decodeDesc v) s = s.rejectReserved (descOp v) (descFields v) := by
  have k06 : ∀ op : BitVec 8, op.extractLsb' 1 7 = 3#7 → (3#7 ++ op.extractLsb' 0 1 : BitVec 8) = op := by decide
  have k08 : ∀ op : BitVec 8, op.extractLsb' 3 5 = 1#5 → (1#5 ++ op.extractLsb' 0 3 : BitVec 8) = op := by decide
  have k10 : ∀ op : BitVec 8, op.extractLsb' 4 4 = 1#4 → (1#4 ++ op.extractLsb' 0 4 : BitVec 8) = op := by decide
  have k20 : ∀ op : BitVec 8, op.extractLsb' 5 3 = 1#3 → (1#3 ++ op.extractLsb' 0 5 : BitVec 8) = op := by decide
  have k40 : ∀ op : BitVec 8, op.extractLsb' 6 2 = 1#2 → (1#2 ++ op.extractLsb' 0 6 : BitVec 8) = op := by decide
  have k80 : ∀ op : BitVec 8, 4 < op.toNat → op = 5#8 ∨ op.extractLsb' 1 7 = 3#7 ∨
      op.extractLsb' 3 5 = 1#5 ∨ op.extractLsb' 4 4 = 1#4 ∨ op.extractLsb' 5 3 = 1#3 ∨
      op.extractLsb' 6 2 = 1#2 ∨ (1#1 ++ op.extractLsb' 0 7 : BitVec 8) = op := by decide
  simp only [decodeDesc]
  generalize descFields v = d
  generalize descOp v = op at *
  split
  · next h0 => subst h0; simp at h
  split
  · next h0 => subst h0; simp at h
  split
  · next h0 => subst h0; simp at h
  split
  · next h0 => subst h0; simp at h
  split
  · next h0 => subst h0; simp at h
  split
  · next h0 => subst h0; rfl
  split
  · next h0 => exact congrArg (s.rejectReserved · d) (k06 _ h0)
  split
  · next h0 => exact congrArg (s.rejectReserved · d) (k08 _ h0)
  split
  · next h0 => exact congrArg (s.rejectReserved · d) (k10 _ h0)
  split
  · next h0 => exact congrArg (s.rejectReserved · d) (k20 _ h0)
  split
  · next h0 => exact congrArg (s.rejectReserved · d) (k40 _ h0)
  · next h5 h6 h8 h1 h2 h4 =>
    rcases k80 op h with h' | h' | h' | h' | h' | h' | h'
    · exact absurd h' h5
    · exact absurd h' h6
    · exact absurd h' h8
    · exact absurd h' h1
    · exact absurd h' h2
    · exact absurd h' h4
    · exact congrArg (s.rejectReserved · d) h'

/-- What a request does in IDLE (R79): refused with PROTOCOL; or accepted, with its first planned
message offered; or a fault, for a write whose `req_payload` is shorter than `plen`. -/
theorem exec_request_cases (v : Desc) (s : State) (hs : s.block.phase = .idle) :
    let l := latchOf (descOp v) (descFields v)
    let p := s.env.payload.take (descFields v).plen.toNat
    let t := s.latchRequest (descOp v) (descFields v)
    (l.rejected ∧ exec (decodeDesc v) s = .next (t.raise .protocol)) ∨
    (Accepted l p ∧ ∃ m, (plannedSends l p)[0]? = some m ∧
      exec (decodeDesc v) s = .next (t.startSend (if l.op = 0x04#8 then .sendF else .sendA) m)) ∨
    (s.env.payload.length < (descFields v).plen.toNat ∧
      exec (decodeDesc v) s = .fault (.absent .pbuf)) := by
  have hp : (s.env.payload.take (descFields v).plen.toNat).length ≤ (descFields v).plen.toNat := by simp
  rcases opCode_cases (descOp v) with h | h | h | h | h | h
  · rw [decodeDesc_writeRaw h, h]
    generalize descFields v = d at *
    rcases Nat.lt_or_ge 255 d.plen.toNat with hn | hn
    · refine .inl ⟨by simp [Latch.rejected, latchOf, hn], ?_⟩
      simp [exec, execWriteRaw, hs, lenCheckRaw_protocol hn]
    · rcases Nat.lt_or_ge s.env.payload.length d.plen.toNat with hq | hq
      · refine .inr (.inr ⟨hq, ?_⟩)
        have : ¬ d.plen.toNat ≤ s.env.payload.length := by omega
        simp [exec, execWriteRaw, hs, lenCheckRaw_pass hn, memRead, this]
      · refine .inr (.inl ⟨⟨by simp [Latch.rejected, latchOf]; omega, hp, fun _ => by simp [latchOf, hq]⟩, ?_⟩)
        simp [exec, execWriteRaw, hs, lenCheckRaw_pass hn, memRead, hq, plannedSends, latchOf, List.take_take]
  · rw [decodeDesc_readRaw h, h]
    generalize descFields v = d at *
    refine .inr (.inl ⟨⟨by simp [Latch.rejected, latchOf], hp, by simp [latchOf]⟩, ?_⟩)
    simp [exec, execReadRaw, hs, plannedSends, latchOf]
  · rw [decodeDesc_writeReg h, h]
    generalize descFields v = d at *
    rcases Nat.lt_or_ge 254 d.plen.toNat with hn | hn
    · refine .inl ⟨by simp [Latch.rejected, latchOf, hn], ?_⟩
      simp [exec, execWriteReg, hs, lenCheckReg_protocol hn]
    · rcases Nat.lt_or_ge s.env.payload.length d.plen.toNat with hq | hq
      · refine .inr (.inr ⟨hq, ?_⟩)
        have : ¬ d.plen.toNat ≤ s.env.payload.length := by omega
        simp [exec, execWriteReg, hs, lenCheckReg_pass hn, memRead, this]
      · refine .inr (.inl ⟨⟨by simp [Latch.rejected, latchOf]; omega, hp, fun _ => by simp [latchOf, hq]⟩, ?_⟩)
        simp [exec, execWriteReg, hs, lenCheckReg_pass hn, memRead, hq, plannedSends, latchOf, List.take_take]
  · rw [decodeDesc_readReg h, h]
    generalize descFields v = d at *
    refine .inr (.inl ⟨⟨by simp [Latch.rejected, latchOf], hp, by simp [latchOf]⟩, ?_⟩)
    by_cases hd : d.delay = 0#32 <;> simp [exec, execReadReg, hs, plannedSends, latchOf, hd]
  · rw [decodeDesc_setFreq h, h]
    generalize descFields v = d at *
    refine .inr (.inl ⟨⟨by simp [Latch.rejected, latchOf], hp, by simp [latchOf]⟩, ?_⟩)
    simp [exec, execSetFreq, hs, plannedSends, latchOf]
  · rw [exec_reserved h, rejectReserved_idle hs]
    exact .inl ⟨.inl (by simpa [latchOf] using h), rfl⟩

end Sys2Proof.Machine
end

