-- ==== Sys2Proof/Laws/Trace.lean ====
section
/-! SUPPORT. The channel trace against its plan: one more transaction, and the failures a transaction can
cause; and the length output of a message that its 16 bits can count. -/

namespace Sys2Proof.Machine

@[simp] theorem txLenOf_toNat {m : List Byte} (h : m.length < 65536) :
    (txLenOf m).toNat = m.length := by
  simp [txLenOf, h]

/-- The planned transactions stay planned when the next one is added. -/
theorem planned_append {tr : List Transaction} {pl : List PlannedTransaction} {k : Nat} {x : Transaction}
    (h : tr.map Transaction.planned = pl.take k) (hx : pl[k]? = some x.planned) :
    (tr ++ [x]).map Transaction.planned = pl.take (k + 1) := by
  rw [List.map_append, h, List.take_add_one, hx]; rfl

/-- No transaction fails with PROTOCOL (R99). -/
theorem failure_ne_protocol {x : Transaction} {k : BusError} (h : x.failure = some k) :
    k ≠ .protocol := by
  rintro rfl
  rcases x with ⟨m, (_ | e)⟩ | ⟨n, (bs | e)⟩
  · cases h
  · cases h
  · rcases bs with _ | ⟨b, _ | _⟩
    · cases h
    · simp only [Transaction.failure] at h
      split at h <;> cases h
    · cases h
  · simp only [Transaction.failure, recvError] at h
    split at h <;> cases h

/-- The first planned send opens the plan. -/
theorem plan_head {l : Latch} {p m : List Byte} (h : (plannedSends l p)[0]? = some m) :
    (plan l p)[0]? = some (.send m) := by
  simp only [plannedSends, plan] at h ⊢
  repeat' split at h
  all_goals simp_all

/-- A reading operation's plan ends with the count and the payload (R83). -/
theorem plan_length_of_hasData {l : Latch} (p : List Byte) (h : l.hasData) : 3 ≤ (plan l p).length := by
  rcases h with h | h
  · simp [plan, h]
  · by_cases hd : l.delay = 0#32 <;> simp [plan, h, hd]

end Sys2Proof.Machine
end

