-- ==== Sys2Proof/Machine/Assembly.lean ====
section
/-! DEFINITION. Request lines of the assembly notation (R65): reading a line's characters, and the
request a line stands for. What R65 leaves open is in log 25. -/

namespace Sys2Proof.Machine

/-! ## The parts of a line -/

/-- A token: a word (a mnemonic, a field's name or a number) or one of the marks of R65. -/
inductive Token where
  | word (cs : List Char)
  | mark (c : Char)
  deriving DecidableEq, Repr

/-- One request line: its mnemonic, its `field=value` pairs and its payload. -/
structure AsmLine where
  mnemonic : String
  args     : List (String × Nat)
  payload  : Option (List Nat)
  deriving DecidableEq, Repr

/-- The value of a digit in base 16. -/
def digitOf (c : Char) : Option Nat :=
  if '0' ≤ c ∧ c ≤ '9' then some (c.toNat - '0'.toNat)
  else if 'a' ≤ c ∧ c ≤ 'f' then some (c.toNat - 'a'.toNat + 10)
  else if 'A' ≤ c ∧ c ≤ 'F' then some (c.toNat - 'A'.toNat + 10)
  else none

/-- A number's digits in a base, most significant first, after the value `acc`. -/
def digitsOf (base : Nat) : Nat → List Char → Option Nat
  | acc, []      => some acc
  | acc, c :: cs =>
    match digitOf c with
    | some d => if d < base then digitsOf base (base * acc + d) cs else none
    | none   => none

/-- A number in decimal or `0x` hexadecimal (R65). -/
def numberOf : List Char → Option Nat
  | []                  => none
  | '0' :: 'x' :: c :: cs => digitsOf 16 0 (c :: cs)
  | c :: cs             => digitsOf 10 0 (c :: cs)

/-- A letter, a digit or an underscore. -/
def isWordChar (c : Char) : Bool :=
  ('0' ≤ c && c ≤ '9') || ('a' ≤ c && c ≤ 'z') || ('A' ≤ c && c ≤ 'Z') || c == '_'

/-- The pending word, if there is one, before the tokens `ts`. -/
def endWord (pending : List Char) (ts : List Token) : List Token :=
  if pending.isEmpty then ts else .word pending :: ts

/-- The tokens of a line; none when it has a character R65 does not use. -/
def tokensOf : List Char → List Char → Option (List Token)
  | pending, []      => some (endWord pending [])
  | pending, c :: cs =>
    if isWordChar c then tokensOf (pending ++ [c]) cs
    else if c = ' ' then (tokensOf [] cs).map (endWord pending)
    else if c ∈ ['=', ',', '(', ')', '[', ']'] then
      (tokensOf [] cs).map fun ts => endWord pending (.mark c :: ts)
    else none

/-- The bytes of a payload after its opening bracket, and what follows its closing one. -/
def bytesOf : List Token → Option (List Nat × List Token)
  | .word w :: .mark ']' :: ts => (numberOf w).map fun v => ([v], ts)
  | .word w :: .mark ',' :: ts =>
    match numberOf w, bytesOf ts with
    | some v, some (vs, rest) => some (v :: vs, rest)
    | _, _                    => none
  | _ => none

/-- A field added in front of a line's fields. -/
def AsmLine.addField (name : String) (v : Nat) (a : AsmLine) : AsmLine :=
  { a with args := (name, v) :: a.args }

/-- A payload for a line that has none. -/
def AsmLine.addPayload (bs : List Nat) (a : AsmLine) : Option AsmLine :=
  match a.payload with
  | none   => some { a with payload := some bs }
  | some _ => none

/-- The fields of a line up to its end, at most `fuel` of them; in the call form the end is a closing
parenthesis. -/
def fieldsOf (mnemonic : String) (call : Bool) : Nat → List Token → Option AsmLine
  | 0, _ => none
  | fuel + 1, ts =>
    let continue_ (more : List Token) : Option AsmLine :=
      match call, more with
      | false, []            => some ⟨mnemonic, [], none⟩
      | true, [.mark ')']    => some ⟨mnemonic, [], none⟩
      | _, .mark ',' :: rest => fieldsOf mnemonic call fuel rest
      | _, _                 => none
    match ts with
    | .word f :: .mark '=' :: .mark '[' :: .mark ']' :: more =>
      if String.ofList f = "payload" then (continue_ more).bind (AsmLine.addPayload []) else none
    | .word f :: .mark '=' :: .mark '[' :: more =>
      if String.ofList f = "payload" then
        match bytesOf more with
        | some (bs, rest) => (continue_ rest).bind (AsmLine.addPayload bs)
        | none            => none
      else none
    | .word f :: .mark '=' :: .word v :: more =>
      match numberOf v with
      | some n => (continue_ more).map (AsmLine.addField (String.ofList f) n)
      | none   => none
    | _ => none

/-- A line from its tokens: the mnemonic and its fields, or the source's call form. R65 shows the plain form
with the spec's mnemonics and the call form with the source's names; either name is taken in either form
(DESIGN CHOICE, log 25). -/
def lineOf : List Token → Option AsmLine
  | [.word m]                         => some ⟨String.ofList m, [], none⟩
  | [.word m, .mark '(', .mark ')']   => some ⟨String.ofList m, [], none⟩
  | .word m :: .mark '(' :: ts        => fieldsOf (String.ofList m) true ts.length ts
  | .word m :: ts                     => fieldsOf (String.ofList m) false ts.length ts
  | _                                 => none

/-! ## The request of a line -/

/-- The op code of a mnemonic or of its synonym, whatever the line's form (R49, R65; DESIGN CHOICE, log 25). -/
def asmOp (m : String) : Option Byte :=
  if m = "WRITE_RAW" ∨ m = "writeRaw" then some 0x00#8
  else if m = "READ_RAW" ∨ m = "readRaw" then some 0x01#8
  else if m = "WRITE_REG" ∨ m = "writeRegister" then some 0x02#8
  else if m = "READ_REG" ∨ m = "readRegister" then some 0x03#8
  else if m = "SET_FREQ" ∨ m = "setFrequency" then some 0x04#8
  else none

/-- A value as a field of `width` bits, none where it does not fit (D5). -/
def fitting (width v : Nat) : Option (BitVec width) :=
  if v < 2 ^ width then some (BitVec.ofNat width v) else none

/-- A field's value: 0, or `dflt`, where the line omits it (R65). -/
def AsmLine.field (a : AsmLine) (name : String) (width dflt : Nat) : Option (BitVec width) :=
  fitting width ((a.args.lookup name).getD dflt)

/-- Every field has a name of R48, and none is given twice. -/
def AsmLine.namesOk (a : AsmLine) : Bool :=
  a.args.all (fun p => decide (p.1 ∈ ["dev", "reg", "n", "delay", "hz", "plen"])) &&
    decide (a.args.map Prod.fst).Nodup

/-- The payload's bytes, none where one does not fit a byte. -/
def payloadBytes : List Nat → Option (List Byte)
  | []      => some []
  | v :: vs =>
    match fitting 8 v, payloadBytes vs with
    | some b, some bs => some (b :: bs)
    | _, _            => none

/-- The request a line stands for: omitted fields are 0, an omitted payload is empty, `plen` is the
payload's length (R65). -/
def assemble (a : AsmLine) : Option Request := do
  let op ← asmOp a.mnemonic
  let payload ← payloadBytes (a.payload.getD [])
  let dev ← a.field "dev" 8 0
  let reg ← a.field "reg" 8 0
  let n ← a.field "n" 8 0
  let delay ← a.field "delay" 32 0
  let hz ← a.field "hz" 32 0
  let plen ← a.field "plen" 16 payload.length
  if a.namesOk then
    some { desc := packDesc op ⟨dev, reg, n, delay, hz, plen, 0#16⟩, payload := payload }
  else none

/-- The request the characters of a line stand for (R65). -/
def requestOfLine (line : List Char) : Option Request :=
  ((tokensOf [] line).bind lineOf).bind assemble

end Sys2Proof.Machine
end

