-- ==== Sys2Proof/Tests/Slice0.lean ====
section
/-! SUPPORT. Tests on single steps with results taken from the spec's vectors (95_test_vectors.md), and
for every statement with hypotheses a witness: values that meet them together. -/

namespace Sys2Proof.Tests
open Sys2Proof.Machine

/-! ## Helpers -/

/-- The next state of an outcome, if it is one. -/
def after : Out → Option State
  | .next s    => some s
  | .fault _   => none
  | .refused _ => none

/-- `n` zero bytes. -/
def zeros (n : Nat) : List Byte := List.replicate n 0#8

@[simp] theorem zeros_length (n : Nat) : (zeros n).length = n := List.length_replicate

/-- An idle block with a payload on `req_payload`. -/
def idleWith (p : List Byte) : State :=
  { State.reset with env := { Env.reset with payload := p } }

/-- A block in phase `p` with a latched request, its payload and its message. -/
def inPhase (p : Phase) (op : Byte) (d : ReqFields) (payload m : List Byte) : State :=
  { State.reset with
    block := { Block.reset with
      phase := p, latch := some (latchOf op d), pbuf := some payload, txbuf := some m } }

/-- READ_REG dev=0x14, reg=0x10, n=3 (95 section 2.11). -/
def readRegFields (delay : Word) : ReqFields := ⟨0x14#8, 0x10#8, 3#8, delay, 0#32, 0#16, 0#16⟩

/-- WRITE_RAW dev=0x3C, plen=2 (95 section 2.8). -/
def writeRawFields : ReqFields := ⟨0x3C#8, 0#8, 0#8, 0#32, 0#32, 2#16, 0#16⟩

/-- SET_FREQ hz (95 section 2.12). -/
def freqFields (hz : Word) : ReqFields := ⟨0#8, 0#8, 0#8, 0#32, hz, 0#16, 0#16⟩

/-- A request of `n` payload bytes. -/
def lengthFields (n : Half) : ReqFields := ⟨0x20#8, 1#8, 0#8, 0#32, 0#32, n, 0#16⟩

/-- The combined packet of V25. -/
def combined : List Byte :=
  [0x32#8, 0x41#8, 0x14#8, 0x4C#8, 0x01#8, 0x77#8, 0x10#8, 0x32#8, 0x4C#8, 0x03#8, 0x52#8]

/-- The write-restart packet of V31. -/
def restartOnly : List Byte := [0x32#8, 0x41#8, 0x14#8, 0x4C#8, 0x01#8, 0x77#8, 0x10#8]

/-- V1 while the status byte is awaited. -/
def v1Status : State :=
  inPhase .waitStatus 0x00#8 writeRawFields [0x00#8, 0xAF#8]
    [0x32#8, 0x41#8, 0x3C#8, 0x4C#8, 0x02#8, 0x57#8, 0x00#8, 0xAF#8]

/-- V25 while the acknowledgment is awaited. -/
def v25Status : State := inPhase .waitStatus 0x03#8 (readRegFields 0#32) [] combined

/-- V25 while the count byte is awaited. -/
def v25Count : State := inPhase .waitCount 0x03#8 (readRegFields 0#32) [] combined

/-- V31 while the acknowledgment is awaited. -/
def v31Status : State := inPhase .waitStatus 0x03#8 (readRegFields 1#32) [] restartOnly

/-! ## Well-formedness: an ill-formed term for each check -/

theorem test_wf_raw_payload : ¬ (Instr.segRawWrite 0x14#8 (zeros 256)).WellFormed := by
  simp [Instr.WellFormed, Instr.wellFormed]
theorem test_wf_reg_payload : ¬ (Instr.segRegWrite 0x14#8 0x10#8 (zeros 255)).WellFormed := by
  simp [Instr.WellFormed, Instr.wellFormed]
theorem test_wf_accept_zero : ¬ (Instr.replyAccept 0x00#8).WellFormed := by decide
theorem test_wf_accept_error : ¬ (Instr.replyAccept 0x4E#8).WellFormed := by decide
theorem test_wf_largest_payloads : (Instr.segRawWrite 0x14#8 (zeros 255)).WellFormed ∧
    (Instr.segRegWrite 0x14#8 0x10#8 (zeros 254)).WellFormed := by
  simp [Instr.WellFormed, Instr.wellFormed]

/-! ## Decoding: words written out from the spec (95 sections 2.1, 2.2, 2.4, 2.6; 30 R49, R52, R55, R61) -/

theorem test_decode_requests :
    decodeDesc 0x00000002000000000000000000003C00#128 = .writeRaw writeRawFields ∧
    decodeDesc 0x00000000000000000000000002004801#128 = .readRaw ⟨0x48#8, 0, 2#8, 0, 0, 0, 0⟩ ∧
    decodeDesc 0x00000003000000000000000000101402#128 = .writeReg ⟨0x14#8, 0x10#8, 0, 0, 0, 3#16, 0⟩ ∧
    decodeDesc 0x00000000000000000000000103101403#128 = .readReg (readRegFields 1#32) ∧
    decodeDesc 0x00000000002710000000000000000004#128 = .setFreq (freqFields 2560000#32) := by decide

theorem test_decode_reserved_requests :
    decodeDesc 0x00000000000000000000000000000005#128 = .reserved05 (freqFields 0#32) ∧
    decodeDesc 0x00000000000000000000000000000007#128 = .reserved06 1#1 (freqFields 0#32) ∧
    decodeDesc 0x0000000000000000000000000000000A#128 = .reserved08 2#3 (freqFields 0#32) ∧
    decodeDesc 0x0000000000000000000000000000001F#128 = .reserved10 15#4 (freqFields 0#32) ∧
    decodeDesc 0x00000000000000000000000000000020#128 = .reserved20 0#5 (freqFields 0#32) ∧
    decodeDesc 0x00000000000000000000000000000041#128 = .reserved40 1#6 (freqFields 0#32) ∧
    decodeDesc 0x000000000000000000000000000000FF#128 = .reserved80 0x7F#7 (freqFields 0#32) := by decide

theorem test_decode_request_bytes :
    decode .request [0x03#8, 0x48#8, 0x00#8, 0x02#8, 0x05#8, 0#8, 0#8, 0#8, 0#8, 0#8, 0#8, 0#8, 0#8, 0#8,
      0#8, 0#8, 0x99#8] = .ok (.readReg ⟨0x48#8, 0, 2#8, 5#32, 0, 0, 0⟩, [0x99#8]) := by decide

theorem test_decode_tags :
    decode (.wire .tag) [0x32#8] = .ok (.packetKind, []) ∧
    decode (.wire .tag) [0x41#8, 0x14#8, 0x4C#8] = .ok (.setAddress 0x14#8, [0x4C#8]) ∧
    decode (.wire .tag) [0x4C#8, 0x04#8] = .ok (.setLength 4#8, []) ∧
    decode (.wire .tag) [0x46#8] = .ok (.setFrequency, []) ∧
    decode (.wire .tag) [0x57#8] = .ok (.write, []) ∧
    decode (.wire .tag) [0x77#8] = .ok (.writeRestart, []) ∧
    decode (.wire .tag) [0x52#8] = .ok (.read, []) ∧
    decode (.wire .tag) [0x72#8] = .ok (.readRestart, []) ∧
    decode (.wire .tag) [0x33#8] = .error (.notATag 0x33#8) ∧
    decode (.wire .tag) [0x41#8] = .error .truncated := by decide

theorem test_decode_segments :
    decode (.wire .rawSegment) [0x32#8, 0x41#8, 0x14#8, 0x4C#8, 0x02#8, 0x57#8, 0xAA#8, 0xBB#8] =
      .ok (.segRawWrite 0x14#8 [0xAA#8, 0xBB#8], []) ∧
    decode (.wire .regSegment) [0x32#8, 0x41#8, 0x68#8, 0x4C#8, 0x01#8, 0x57#8, 0x6B#8] =
      .ok (.segRegWrite 0x68#8 0x6B#8 [], []) ∧
    decode (.wire .rawSegment) [0x32#8, 0x41#8, 0x68#8, 0x4C#8, 0x06#8, 0x52#8] =
      .ok (.segAddrRead 0x68#8 6#8, []) ∧
    decode (.wire .regSegment) combined = .ok (.segWriteRestart 0x14#8 0x10#8,
      [0x32#8, 0x4C#8, 0x03#8, 0x52#8]) ∧
    decode (.wire .rawSegment) [0x32#8, 0x4C#8, 0xFF#8, 0x52#8] = .ok (.segReadFollow 0xFF#8, []) := by
  decide

theorem test_decode_rejects :
    decode (.wire .rawSegment) [0x33#8, 0x4C#8, 0xFF#8, 0x52#8] = .error .notASegment ∧
    decode (.wire .rawSegment) [0x32#8, 0x4C#8, 0xFF#8, 0x57#8] = .error .notASegment ∧
    decode (.wire .rawSegment) [0x32#8, 0x41#8, 0x14#8, 0x4C#8, 0x02#8, 0x57#8, 0xAA#8] =
      .error .truncated ∧
    decode (.wire .regSegment) [0x32#8, 0x41#8, 0x14#8, 0x4C#8, 0x00#8, 0x57#8] = .error .notASegment ∧
    decode .request [0x00#8] = .error .truncated ∧ decode .reply [] = .error .truncated := by decide

theorem test_decode_replies :
    decode .reply [0x00#8] = .ok (.replyZero, []) ∧ decode .reply [0x4E#8] = .ok (.errNone, []) ∧
    decode .reply [0x55#8] = .ok (.errUnescape, []) ∧ decode .reply [0x4C#8] = .ok (.errLength, []) ∧
    decode .reply [0x52#8] = .ok (.errRead, []) ∧ decode .reply [0x57#8] = .ok (.errWriteData, []) ∧
    decode .reply [0x53#8] = .ok (.errSendData, []) ∧
    decode .reply [0x01#8] = .ok (.replyAccept 1#8, []) ∧
    decode .reply [0xFF#8, 0x00#8] = .ok (.replyAccept 0xFF#8, [0x00#8]) := by decide

/-- The words of the opcode table: a tag, an error code, op codes, segments (log 19). -/
theorem test_table_words :
    decodeTableWord 8 0x41 = some (.setAddress 0#8) ∧ decodeTableWord 8 0x4E = some .errNone ∧
    decodeTableWord 128 0x03 = some (.readReg (freqFields 0#32)) ∧
    decodeTableWord 32 0x52004C32 = some (.segReadFollow 0#8) ∧
    decodeTableWord 56 0x0057004C004132 = none ∧
    decodeTableWord 56 0x0077014C004132 = some (.segWriteRestart 0#8 0#8) := by decide +kernel

/-! ## Codec functions (95 sections 2.2 to 2.7) -/

theorem test_build_write_not_escaped : buildWrite 0x00#8 [0x32#8, 0x41#8, 0x4C#8] =
    [0x32#8, 0x41#8, 0x00#8, 0x4C#8, 0x03#8, 0x57#8, 0x32#8, 0x41#8, 0x4C#8] := by decide

theorem test_build_write_register_empty : buildWriteRegister 0x68#8 0x6B#8 [] =
    [0x32#8, 0x41#8, 0x68#8, 0x4C#8, 0x01#8, 0x57#8, 0x6B#8] := by decide

theorem test_longest_message : (buildWriteRegister 0x01#8 0x02#8 (zeros 254)).length = 261 ∧
    (buildWriteRegister 0x01#8 0x02#8 (zeros 254))[4]? = some 0xFF#8 := by
  simp [buildWriteRegister, addressedSegment, lengthByte]

theorem test_freq_byte : freqByte 9999#32 = 0#8 ∧ freqByte 500000#32 = 50#8 ∧
    freqByte 2559999#32 = 255#8 ∧ freqByte 2560000#32 = 0#8 ∧ freqByte 3400000#32 = 84#8 ∧
    freqByte 4294967295#32 = 184#8 := by decide

theorem test_len_check : lenCheckRaw 255#16 = .pass ∧ lenCheckRaw 256#16 = .protocol ∧
    lenCheckReg 254#16 = .pass ∧ lenCheckReg 255#16 = .protocol ∧ lenCheckReg 65535#16 = .protocol := by
  decide

theorem test_reply_parsers : decodeStatus 0x4D#8 = .ok ∧ decodeStatus 0x00#8 = .timeout ∧
    decodeStatus 0x4E#8 = .err .none ∧ decodeCount 0x4B#8 = .count 75#8 ∧
    decodeCount 0x53#8 = .err .sendData ∧ decodeCount 0x00#8 = .timeout := by decide

theorem test_parse_write_register :
    parseWriteRegister [0x32#8, 0x41#8, 0x14#8, 0x4C#8, 0x04#8, 0x57#8, 0x10#8, 0x00#8, 0x01#8, 0x02#8] =
      some (0x14#8, 0x10#8, [0x00#8, 0x01#8, 0x02#8]) ∧
    parseWriteRegister [0x32#8, 0x41#8, 0x14#8, 0x4C#8, 0x00#8, 0x57#8] = none ∧
    parseWriteRegister [0x32#8, 0x41#8, 0x14#8, 0x4C#8, 0x05#8, 0x57#8, 0x10#8, 0x00#8, 0x01#8, 0x02#8] =
      none ∧
    parseWriteRegister [0x32#8, 0x41#8, 0x14#8, 0x4C#8, 0x01#8, 0x77#8, 0x10#8] = none := by decide

theorem test_response_descriptors :
    rspDescOf (.ok 0#8) = 0x00000000#32 ∧ rspDescOf (.ok 255#8) = 0x0000FF00#32 ∧
    rspDescOf (.err (.transport ⟨7⟩)) = 0x00000001#32 ∧ rspDescOf (.err .timeout) = 0x00000002#32 ∧
    rspDescOf (.err (.device .none)) = 0x004E0003#32 ∧
    rspDescOf (.err (.device .unescape)) = 0x0055000B#32 ∧
    rspDescOf (.err (.device .length)) = 0x004C0013#32 ∧
    rspDescOf (.err (.device .read)) = 0x0052001B#32 ∧
    rspDescOf (.err (.device .writeData)) = 0x00570023#32 ∧
    rspDescOf (.err (.device .sendData)) = 0x0053002B#32 ∧
    rspDescOf (.err .protocol) = 0x00000004#32 := by decide

theorem test_status_output :
    ({ Block.reset with phase := .idle }).status = 0x00#8 ∧
    ({ Block.reset with phase := .sendA }).status = 0x11#8 ∧
    ({ Block.reset with phase := .waitStatus }).status = 0x12#8 ∧
    ({ Block.reset with phase := .delaying }).status = 0x13#8 ∧
    ({ Block.reset with phase := .sendB }).status = 0x14#8 ∧
    ({ Block.reset with phase := .waitCount }).status = 0x15#8 ∧
    ({ Block.reset with phase := .waitPayload }).status = 0x16#8 ∧
    ({ Block.reset with phase := .done }).status = 0x17#8 ∧
    ({ Block.reset with phase := .failed }).status = 0x18#8 ∧
    ({ Block.reset with phase := .sendF }).status = 0x19#8 ∧
    ({ Block.reset with phase := .sendRst }).status = 0x1A#8 := by decide

/-- Lines of 95 section 2.6 and P2, in both forms, and lines that are no request. -/
theorem test_assembly :
    requestOfLine "writeRegister(dev=0x14, reg=0x10, payload=[0,1,2])".toList =
      some ⟨0x00000003000000000000000000101402#128, [0#8, 1#8, 2#8]⟩ ∧
    requestOfLine "WRITE_RAW dev=0x3C, payload=[0x00, 0xAF]".toList =
      some ⟨0x00000002000000000000000000003C00#128, [0x00#8, 0xAF#8]⟩ ∧
    requestOfLine "SET_FREQ  hz=2560000".toList =
      some ⟨0x00000000002710000000000000000004#128, []⟩ ∧
    requestOfLine "READ_RAW dev=256".toList = none ∧ requestOfLine "READ_RAW dev=1,".toList = none := by
  decide +kernel

/-! ## Requests (95 sections 2.8 to 2.13) -/

theorem test_writeRaw : (after (exec (.writeRaw writeRawFields) (idleWith [0x00#8, 0xAF#8]))).map
    (fun s => (s.block.phase, s.block.txbuf)) = some (.sendA,
      some [0x32#8, 0x41#8, 0x3C#8, 0x4C#8, 0x02#8, 0x57#8, 0x00#8, 0xAF#8]) := by decide

theorem test_writeRaw_overlong : (after (exec (.writeRaw (lengthFields 256#16))
    (idleWith (zeros 256)))).map (fun s => (s.block.phase, s.block.result, s.block.txbuf)) =
    some (.failed, some (.err .protocol), none) := by
  simp [after, exec, execWriteRaw, idleWith, lengthFields, lenCheckRaw, State.reset, Block.reset]

theorem test_readRaw : (after (exec (.readRaw ⟨0x48#8, 0, 2#8, 0, 0, 0, 0⟩) State.reset)).map
    (fun s => (s.block.phase, s.block.txbuf)) = some (.sendA,
      some [0x32#8, 0x41#8, 0x48#8, 0x4C#8, 0x02#8, 0x52#8]) := by decide

theorem test_writeReg : (after (exec (.writeReg ⟨0x14#8, 0x10#8, 0, 0, 0, 3#16, 0⟩)
    (idleWith [0#8, 1#8, 2#8]))).map (fun s => (s.block.phase, s.block.txbuf)) = some (.sendA,
      some [0x32#8, 0x41#8, 0x14#8, 0x4C#8, 0x04#8, 0x57#8, 0x10#8, 0#8, 1#8, 2#8]) := by decide

theorem test_writeReg_overlong : (after (exec (.writeReg (lengthFields 255#16))
    (idleWith (zeros 255)))).map (fun s => (s.block.phase, s.block.result)) =
    some (.failed, some (.err .protocol)) := by
  simp [after, exec, execWriteReg, idleWith, lengthFields, lenCheckReg, State.reset, Block.reset]

theorem test_readReg_combined : (after (exec (.readReg (readRegFields 0#32)) State.reset)).map
    (fun s => (s.block.phase, s.block.txbuf)) = some (.sendA, some combined) := by decide

theorem test_readReg_delayed : (after (exec (.readReg (readRegFields 1#32)) State.reset)).map
    (fun s => (s.block.phase, s.block.txbuf)) = some (.sendA, some restartOnly) := by decide

theorem test_setFreq : (after (exec (.setFreq (freqFields 2560000#32)) State.reset)).map
    (fun s => (s.block.phase, s.block.txbuf)) = some (.sendF, some (Config.freqPacket 0x00#8)) := by rfl

theorem test_reserved05 : (after (exec (.reserved05 (freqFields 0#32)) State.reset)).map
    (fun s => (s.block.phase, s.block.result)) = some (.failed, some (.err .protocol)) := by decide

theorem test_reserved06 : (after (exec (.reserved06 1#1 (freqFields 0#32)) State.reset)).map
    (fun s => s.block.latch.map Latch.op) = some (some 0x07#8) := by decide

theorem test_reserved08 : (after (exec (.reserved08 2#3 (freqFields 0#32)) State.reset)).map
    (fun s => s.block.latch.map Latch.op) = some (some 0x0A#8) := by decide

theorem test_reserved10 : (after (exec (.reserved10 15#4 (freqFields 0#32)) State.reset)).map
    (fun s => s.block.latch.map Latch.op) = some (some 0x1F#8) := by decide

theorem test_reserved20 : (after (exec (.reserved20 0#5 (freqFields 0#32)) State.reset)).map
    (fun s => s.block.latch.map Latch.op) = some (some 0x20#8) := by decide

theorem test_reserved40 : (after (exec (.reserved40 1#6 (freqFields 0#32)) State.reset)).map
    (fun s => s.block.latch.map Latch.op) = some (some 0x41#8) := by decide

theorem test_reserved80 : (after (exec (.reserved80 0x7F#7 (freqFields 0#32)) State.reset)).map
    (fun s => (s.block.latch.map Latch.op, s.block.result)) =
    some (some 0xFF#8, some (.err .protocol)) := by decide

/-! ## Codec calls (95 sections 2.1, 2.2) -/

/-- The codec output of an instruction run right after reset. -/
def emitted (i : Instr) : Option (List Byte) := (after (exec i State.reset)).map (·.codecOut)

theorem test_packetKind : emitted .packetKind = some [0x32#8] := by decide
theorem test_setAddress : emitted (.setAddress 0x14#8) = some [0x41#8, 0x14#8] := by decide
theorem test_setLength : emitted (.setLength 0x04#8) = some [0x4C#8, 0x04#8] := by decide
theorem test_setFrequency : emitted .setFrequency = some [0x46#8] := by decide
theorem test_write : emitted .write = some [0x57#8] := by decide
theorem test_writeRestart : emitted .writeRestart = some [0x77#8] := by decide
theorem test_read : emitted .read = some [0x52#8] := by decide
theorem test_readRestart : emitted .readRestart = none := by decide

theorem test_segRawWrite : emitted (.segRawWrite 0x3C#8 []) =
    some [0x32#8, 0x41#8, 0x3C#8, 0x4C#8, 0x00#8, 0x57#8] := by decide
theorem test_segRegWrite : emitted (.segRegWrite 0x14#8 0x10#8 [0#8, 1#8, 2#8]) =
    some [0x32#8, 0x41#8, 0x14#8, 0x4C#8, 0x04#8, 0x57#8, 0x10#8, 0#8, 1#8, 2#8] := by decide
theorem test_segAddrRead : emitted (.segAddrRead 0x50#8 0#8) =
    some [0x32#8, 0x41#8, 0x50#8, 0x4C#8, 0x00#8, 0x52#8] := by decide
theorem test_segWriteRestart : emitted (.segWriteRestart 0x14#8 0x10#8) = some restartOnly := by decide
theorem test_segReadFollow : emitted (.segReadFollow 255#8) =
    some [0x32#8, 0x4C#8, 0xFF#8, 0x52#8] := by decide

/-! ## Replies (95 sections 2.8 to 2.11) -/

/-- The phase and result after a reply. -/
def replied (i : Instr) (s : State) : Option (Phase × Option Result) :=
  (after (exec i s)).map fun t => (t.block.phase, t.block.result)

theorem test_replyZero : replied .replyZero v1Status = some (.failed, some (.err .timeout)) ∧
    replied .replyZero v25Count = some (.failed, some (.err .timeout)) := by decide
theorem test_errNone : replied .errNone v1Status = some (.failed, some (.err (.device .none))) := by decide
theorem test_errUnescape :
    replied .errUnescape v25Count = some (.failed, some (.err (.device .unescape))) := by decide
theorem test_errLength :
    replied .errLength v25Status = some (.failed, some (.err (.device .length))) := by decide
theorem test_errRead : replied .errRead v25Count = some (.failed, some (.err (.device .read))) := by decide
theorem test_errWriteData :
    replied .errWriteData v1Status = some (.failed, some (.err (.device .writeData))) := by decide
theorem test_errSendData :
    replied .errSendData v1Status = some (.failed, some (.err (.device .sendData))) := by decide
theorem test_replyAccept_status : replied (.replyAccept 0xFF#8) v1Status = some (.done, some (.ok 0#8)) ∧
    replied (.replyAccept 1#8) v25Status = some (.waitCount, none) ∧
    replied (.replyAccept 1#8) v31Status = some (.delaying, none) := by decide
theorem test_replyAccept_count : (after (exec (.replyAccept 3#8) v25Count)).map
    (fun s => (s.block.phase, s.block.count)) = some (.waitPayload, some 3#8) := by decide

/-! ## Other steps -/

/-- V48: reset in DONE of V20 discards the response. -/
theorem test_reset_in_done :
    (after (step { State.reset with
      block := { Block.reset with phase := .done, result := some (.ok 0#8), latch := some (latchOf 2#8 (lengthFields 0#16)) }
      env := { Env.reset with resets := [0] } })).map
      (fun s => (s.block, s.log.responses, s.log.events)) = some (Block.reset, [], []) := by decide

/-- V17: data bytes are not classified. -/
theorem test_payload_not_classified :
    (after (step { State.reset with
      block := { Block.reset with phase := .waitPayload, count := some 2#8, latch := some (latchOf 1#8 (readRegFields 0#32)) }
      env := { Env.reset with rx := [.byte 0x4C#8, .byte 0x00#8] } })).map
      (fun s => (s.block.phase, s.block.rxbuf, s.block.result)) =
    some (.done, some [0x4C#8, 0x00#8], some (.ok 2#8)) := by decide

/-- A placed word is the first instruction after reset. -/
theorem test_placed_words :
    step (State.reset.withFetchWord 8 0x41) =
      exec (.setAddress 0#8) { State.reset with codecOut := [] } ∧
    (after (step (State.reset.withFetchWord 8 0x4E))).map (·.block.result) =
      some (some (.err (.device .none))) ∧
    (after (step (State.reset.withFetchWord 128 0x05))).map (·.block.result) =
      some (some (.err .protocol)) := by
  refine ⟨rfl, ?_, ?_⟩ <;> decide

/-! ## Witnesses: values that meet the hypotheses of each statement together -/

/-- A request for READ_REG with delay `t`. -/
def readRegRequest (t : Word) : Request := ⟨packDesc 0x03#8 (readRegFields t), []⟩

/-- An idle block to which one request is presented. -/
def presented (r : Request) : State := { State.reset with env := { Env.reset with reqs := [r] } }

/-- The largest register write, 254 bytes. -/
def largest : List Byte := zeros 254

theorem witness_DecodeOfEncode : (Instr.segRegWrite 1#8 2#8 largest).WellFormed ∧
    (Instr.replyAccept 0xFF#8).WellFormed ∧ (Instr.readReg (readRegFields 5#32)).WellFormed := by
  simp [Instr.WellFormed, Instr.wellFormed, largest, errorKindOf]

theorem witness_RegisterWriteParsesBack : largest.length ≤ 254 := by simp [largest]

theorem witness_SentMessages : (zeros 255).length ≤ 255 ∧ largest.length ≤ 254 := by
  simp [largest]

theorem witness_NoMessageCarries :
    (latchOf 0x03#8 (readRegFields 1#32)).op ≠ 0x04#8 ∧
    restartOnly ∈ plannedSends (latchOf 0x03#8 (readRegFields 1#32)) [] ∧
    combined ∈ plannedSends (latchOf 0x03#8 (readRegFields 0#32)) [] := by decide

theorem witness_LengthCheck : State.reset.block.phase = .idle ∧
    lenCheckRaw (lengthFields 256#16).plen = .protocol ∧
    lenCheckReg (lengthFields 255#16).plen = .protocol := by decide

theorem witness_Builders : (zeros 255).length ≤ 255 ∧ largest.length ≤ 254 ∧
    tagByte .read = tagByte .read := by simp [largest]

theorem witness_WriteRaw : (idleWith (zeros 255)).block.phase = .idle ∧
    (lengthFields 255#16).plen.toNat ≤ 255 ∧
    (lengthFields 255#16).plen.toNat ≤ (idleWith (zeros 255)).env.payload.length := by
  simp [idleWith, lengthFields, State.reset, Block.reset]

theorem witness_ReadRaw : State.reset.block.phase = .idle := by decide

theorem witness_WriteReg : (idleWith largest).block.phase = .idle ∧
    (lengthFields 254#16).plen.toNat ≤ 254 ∧
    (lengthFields 254#16).plen.toNat ≤ (idleWith largest).env.payload.length := by
  simp [idleWith, lengthFields, State.reset, Block.reset, largest]

theorem witness_ReadRegWithoutDelay : State.reset.block.phase = .idle ∧
    (readRegFields 0#32).delay = 0#32 := by decide

theorem witness_ReadRegWithDelay : State.reset.block.phase = .idle ∧
    (readRegFields 1#32).delay ≠ 0#32 := by decide

theorem witness_SetFreq : (idleWith []).block.phase = .idle := by decide

theorem witness_OverlongWrites : State.reset.block.phase = .idle ∧
    255 < (lengthFields 256#16).plen.toNat ∧ 254 < (lengthFields 255#16).plen.toNat := by decide

theorem witness_ShortPayloads : (idleWith [0#8]).block.phase = .idle ∧
    (idleWith [0#8]).env.payload.length < (lengthFields 2#16).plen.toNat ∧
    (lengthFields 2#16).plen.toNat ≤ 254 := by decide

theorem witness_ReservedOpCodes : State.reset.block.phase = .idle ∧
    4 < (descOp 0x05#128).toNat ∧ 4 < (descOp 0xFF#128).toNat := by decide

theorem witness_BusyBlock : (Instr.writeRaw writeRawFields).format = .request ∧
    v25Count.block.phase ≠ .idle := by decide

theorem witness_RequestsChangeNothingElse : (Instr.readReg (readRegFields 0#32)).format = .request ∧
    State.reset.block.phase = .idle ∧
    ∃ t, exec (.readReg (readRegFields 0#32)) State.reset = .next t := ⟨rfl, rfl, _, rfl⟩

theorem witness_ReservedDescriptorBits : State.reset.block.phase = .idle ∧
    (0x00000002000000000000000000003C00#128).extractLsb' 0 112 =
      (0xFFFF0002000000000000000000003C00#128).extractLsb' 0 112 := by decide

theorem witness_SegmentsEmit : (zeros 255).length ≤ 255 ∧ largest.length ≤ 254 := by
  simp [largest]

theorem witness_OverlongSegments : 255 < (zeros 256).length ∧
    254 < (zeros 255).length := by simp

theorem witness_SegmentsAreTheirTags : (zeros 255).length ≤ 255 ∧ (zeros 254).length ≤ 254 := by simp

theorem witness_BadReplies : v1Status.block.phase = .waitStatus ∧ v25Count.block.phase = .waitCount := by
  decide

theorem witness_AcceptedStatus : v1Status.block.phase = .waitStatus ∧
    (Instr.replyAccept 0x01#8).WellFormed ∧
    v1Status.block.latch = some (latchOf 0x00#8 writeRawFields) ∧
    (latchOf 0x00#8 writeRawFields).op = 0x00#8 ∧
    (latchOf 0x02#8 writeRawFields).op = 0x02#8 := by decide

theorem witness_AcceptedAcknowledgment : v25Status.block.phase = .waitStatus ∧
    v31Status.block.phase = .waitStatus ∧ (Instr.replyAccept 0xFF#8).WellFormed ∧
    v25Status.block.latch = some (latchOf 0x03#8 (readRegFields 0#32)) ∧
    v31Status.block.latch = some (latchOf 0x03#8 (readRegFields 1#32)) ∧
    (latchOf 0x03#8 (readRegFields 0#32)).op = 0x03#8 ∧
    (latchOf 0x03#8 (readRegFields 0#32)).delay = 0#32 ∧
    (latchOf 0x03#8 (readRegFields 1#32)).delay ≠ 0#32 := by decide

theorem witness_AcceptedCount : v25Count.block.phase = .waitCount ∧
    (Instr.replyAccept 0xFF#8).WellFormed := by decide

theorem witness_OtherPhases : Instr.errNone.format = .reply ∧
    State.reset.block.phase ≠ .waitStatus ∧ State.reset.block.phase ≠ .waitCount := by decide

theorem witness_Receive :
    receive 2 [.byte 1#8, .byte 2#8, .byte 3#8] = .ok [1#8, 2#8] [.byte 3#8] ∧
    receive 2 [.byte 1#8, .fail ⟨7⟩, .byte 3#8] = .err ⟨7⟩ [.byte 1#8, .byte 3#8] ∧
    v25Count.block.rxReqValid = true := by decide

/-- A block with a send outstanding and its answer at hand. -/
def sending (p : Phase) (st : SendStatus) : State :=
  { inPhase p 0x03#8 (readRegFields 1#32) [] restartOnly with env := { Env.reset with tx := [st, .ok] } }

theorem witness_Sends (p : Phase) (st : SendStatus) :
    (sending p st).env.resets = [] ∧ (sending p st).env.calls = [] ∧ (sending p st).block.phase = p ∧
    (sending p st).block.txbuf = some restartOnly ∧
    (sending p st).block.latch = some (latchOf 0x03#8 (readRegFields 1#32)) ∧
    (sending p st).env.tx = st :: [.ok] := ⟨rfl, rfl, rfl, rfl, rfl, rfl⟩

theorem witness_FirstSend : (sending .sendA .ok).block.phase = .sendA ∧
    (sending .sendA (.err ⟨7⟩)).env.tx = .err ⟨7⟩ :: [.ok] ∧
    (sending .sendA .ok).env.tx = .ok :: [.ok] := by decide

theorem witness_SecondSend : (sending .sendB .ok).block.phase = .sendB ∧
    (sending .sendB (.err ⟨7⟩)).env.tx = .err ⟨7⟩ :: [.ok] ∧
    (sending .sendB .ok).env.tx = .ok :: [.ok] := by decide

theorem witness_SetFreqSends : (sending .sendF (.err ⟨7⟩)).block.phase = .sendF ∧
    (sending .sendRst .ok).block.phase = .sendRst := by decide

/-- A block that awaits a payload of `c` bytes, with a stream. -/
def awaitingPayload (c : Byte) (rx : List RxItem) : State :=
  { State.reset with
    block := { Block.reset with
      phase := .waitPayload, latch := some (latchOf 0x01#8 (readRegFields 0#32)), pbuf := some []
      txbuf := some (buildReadRequest 0x14#8 3#8), count := some c }
    env := { Env.reset with rx := rx } }

theorem witness_FailedReceives :
    (awaitingPayload 3#8 [.byte 1#8, .fail ⟨7⟩]).env.resets = [] ∧
    (awaitingPayload 3#8 [.byte 1#8, .fail ⟨7⟩]).env.calls = [] ∧
    (awaitingPayload 3#8 [.byte 1#8, .fail ⟨7⟩]).block.rxCount = some 3#8 ∧
    receive (3#8).toNat (awaitingPayload 3#8 [.byte 1#8, .fail ⟨7⟩]).env.rx = .err ⟨7⟩ [.byte 1#8] ∧
    v1Status.block.rxCount = some 1#8 ∧ v25Count.block.rxCount = some 1#8 ∧
    receive (1#8).toNat [.fail ⟨7⟩] = .err ⟨7⟩ [] := by decide

/-- 255 data bytes, the most a count byte can announce (V19). -/
def mostData : List Byte := zeros 255

theorem witness_Payload :
    (awaitingPayload 255#8 (mostData.map RxItem.byte ++ [])).env.resets = [] ∧
    (awaitingPayload 255#8 (mostData.map RxItem.byte ++ [])).env.calls = [] ∧
    (awaitingPayload 255#8 (mostData.map RxItem.byte ++ [])).block.phase = .waitPayload ∧
    (awaitingPayload 255#8 (mostData.map RxItem.byte ++ [])).block.count = some 255#8 ∧
    mostData.length = (255#8).toNat ∧
    (awaitingPayload 255#8 (mostData.map RxItem.byte ++ [])).env.rx = mostData.map RxItem.byte ++ [] := by
  simp [awaitingPayload, mostData, State.reset, Env.reset]

/-- A block in DELAYING with a timer and lags. -/
def delayed (t : Word) (lags : List Nat) : State :=
  { State.reset with
    block := { Block.reset with
      phase := .delaying, latch := some (latchOf 0x03#8 (readRegFields 5#32)), pbuf := some []
      txbuf := some restartOnly, timer := some t }
    env := { Env.reset with lags := lags } }

theorem witness_Delay (t : Word) (lags : List Nat) : (delayed t lags).env.resets = [] ∧
    (delayed t lags).env.calls = [] ∧ (delayed t lags).block.phase = .delaying ∧
    (delayed t lags).block.latch = some (latchOf 0x03#8 (readRegFields 5#32)) ∧
    (delayed t lags).block.timer = some t ∧ (delayed t lags).env.lags = lags :=
  ⟨rfl, rfl, rfl, rfl, rfl, rfl⟩

theorem witness_DelayClauses : (delayed 1#32 []).block.timer ≠ some 0#32 ∧
    (delayed 0#32 [0]).env.lags = 0 :: [] ∧ (delayed 0#32 [1]).env.lags = (0 + 1) :: [] ∧
    (delayed 0#32 []).env.lags = [] := by decide

/-- A finished READ_RAW with `c` bytes of data `d`. -/
def finished (c : Byte) (d : List Byte) : State :=
  { State.reset with
    block := { Block.reset with
      phase := .done, latch := some (latchOf 0x01#8 (readRegFields 0#32)), pbuf := some []
      txbuf := some (buildReadRequest 0x14#8 3#8), count := some c, rxbuf := some d
      result := some (.ok c) } }

/-- A finished write. -/
def finishedWrite : State :=
  { v1Status with block := { v1Status.block with phase := .done, result := some (.ok 0#8) } }

/-- A failed write. -/
def failedWrite : State :=
  { v1Status with block := { v1Status.block with phase := .failed, result := some (.err .timeout) } }

theorem witness_ResponseWithData : (finished 255#8 mostData).env.resets = [] ∧
    (finished 255#8 mostData).env.calls = [] ∧ (finished 255#8 mostData).env.rspReady = true ∧
    (finished 255#8 mostData).block.latch = some (latchOf 0x01#8 (readRegFields 0#32)) ∧
    (finished 255#8 mostData).block.phase = .done ∧
    (finished 255#8 mostData).block.result = some (.ok 255#8) ∧
    (finished 255#8 mostData).block.rxbuf = some mostData ∧ mostData.length = (255#8).toNat := by
  simp [finished, mostData, State.reset, Env.reset]

theorem witness_ResponseWithoutData : finishedWrite.env.resets = [] ∧ finishedWrite.env.calls = [] ∧
    finishedWrite.env.rspReady = true ∧
    finishedWrite.block.latch = some (latchOf 0x00#8 writeRawFields) ∧
    finishedWrite.block.phase = .done ∧ finishedWrite.block.result = some (.ok 0#8) := by decide

theorem witness_ResponseOfFailure : failedWrite.env.resets = [] ∧ failedWrite.env.calls = [] ∧
    failedWrite.env.rspReady = true ∧
    failedWrite.block.latch = some (latchOf 0x00#8 writeRawFields) ∧
    failedWrite.block.phase = .failed ∧ failedWrite.block.result = some (.err .timeout) := by decide

theorem witness_ResponseNotTaken :
    ({ failedWrite with env := { Env.reset with rspReady := false } }).env.rspReady = false ∧
    ({ failedWrite with env := { Env.reset with rspReady := false } }).block.phase = .failed ∧
    ({ finishedWrite with env := { Env.reset with rspReady := false } }).block.phase = .done := by decide

/-! ## Witnesses: consistent states, one for each phase -/

/-- `s` with the SET_FREQ outcomes `l`. -/
def withSends (l : List SendStatus) (s : State) : State := { s with sends := l }

/-- A SET_FREQ in phase `p` with the message `m`. -/
def setFreqIn (p : Phase) (m : List Byte) : State :=
  inPhase p 0x04#8 (freqFields 500000#32) [] m

theorem accepted_read (t : Word) : Accepted (latchOf 0x03#8 (readRegFields t)) [] where
  notRejected := by simp [Latch.rejected, latchOf]
  pbufFits    := by simp
  writeFull   := by simp [latchOf]

theorem accepted_readRaw : Accepted (latchOf 0x01#8 (readRegFields 0#32)) [] where
  notRejected := by simp [Latch.rejected, latchOf]
  pbufFits    := by simp
  writeFull   := by simp [latchOf]

theorem accepted_setFreq : Accepted (latchOf 0x04#8 (freqFields 500000#32)) [] where
  notRejected := by simp [Latch.rejected, latchOf]
  pbufFits    := by simp
  writeFull   := by simp [latchOf]

theorem accepted_write : Accepted (latchOf 0x00#8 writeRawFields) [0x00#8, 0xAF#8] where
  notRejected := by simp [Latch.rejected, latchOf, writeRawFields]
  pbufFits    := by simp [latchOf, writeRawFields]
  writeFull   := by simp [latchOf, writeRawFields]

theorem consistent_reset : State.reset.Consistent := ⟨rfl, rfl⟩

theorem consistent_idle (r : Request) : (presented r).Consistent := ⟨rfl, rfl⟩

theorem consistent_sendA (st : SendStatus) : (sending .sendA st).Consistent :=
  ⟨⟨⟨rfl, rfl⟩, rfl, rfl, _, _, rfl, rfl, accepted_read 1#32, by decide, rfl⟩, rfl⟩

theorem consistent_waitStatus : v1Status.Consistent :=
  ⟨⟨⟨rfl, rfl⟩, rfl, rfl, _, _, rfl, rfl, accepted_write, .inl rfl, rfl⟩, rfl⟩

theorem consistent_delaying : (delayed 3#32 [0]).Consistent :=
  ⟨⟨⟨rfl, rfl⟩, rfl, _, _, _, rfl, rfl, accepted_read 5#32, ⟨rfl, by decide⟩, rfl, rfl, by decide⟩, rfl⟩

theorem consistent_sendB :
    (inPhase .sendB 0x03#8 (readRegFields 1#32) [] [0x32#8, 0x4C#8, 0x03#8, 0x52#8]).Consistent :=
  ⟨⟨⟨rfl, rfl⟩, rfl, rfl, _, _, rfl, rfl, accepted_read 1#32, ⟨rfl, by decide⟩, rfl⟩, rfl⟩

theorem consistent_waitCount : v25Count.Consistent :=
  ⟨⟨⟨rfl, rfl⟩, rfl, rfl, _, _, rfl, rfl, accepted_read 0#32, .inr rfl, rfl⟩, rfl⟩

theorem consistent_waitPayload (rx : List RxItem) : (awaitingPayload 255#8 rx).Consistent :=
  ⟨⟨⟨rfl, rfl⟩, rfl, _, _, _, rfl, rfl, accepted_readRaw, .inl rfl, rfl, rfl, by decide⟩, rfl⟩

theorem consistent_sendF :
    (setFreqIn .sendF (Config.freqPacket (freqByte 500000#32))).Consistent :=
  ⟨⟨⟨rfl, rfl⟩, rfl, rfl, _, _, rfl, rfl, accepted_setFreq, rfl, rfl⟩, rfl⟩

theorem consistent_sendRst : (withSends [.ok] (setFreqIn .sendRst Config.busResetPacket)).Consistent :=
  ⟨⟨⟨rfl, rfl⟩, rfl, rfl, _, _, rfl, rfl, accepted_setFreq, rfl, rfl⟩, rfl⟩

theorem consistent_done_read : (finished 2#8 [0x0C#8, 0x80#8]).Consistent :=
  ⟨⟨rfl, _, _, _, rfl, rfl, accepted_readRaw, rfl, .inr ⟨.inl rfl, by decide, rfl, _, rfl, rfl⟩⟩, rfl⟩

theorem consistent_done_write : finishedWrite.Consistent :=
  ⟨⟨rfl, _, _, _, rfl, rfl, accepted_write, rfl,
    .inl ⟨by simp [Latch.hasData, latchOf], rfl, rfl, rfl⟩⟩, rfl⟩

theorem consistent_failed : failedWrite.Consistent :=
  ⟨⟨rfl, rfl, _, _, _, rfl, rfl, rfl,
    by simp [Latch.rejected, latchOf, writeRawFields], by decide⟩, rfl⟩

theorem witness_OutstandingMessages : (sending .sendA .ok).block.Consistent ∧
    (sending .sendA .ok).block.phase = .sendA ∧
    (inPhase .sendB 0x03#8 (readRegFields 1#32) [] [0x32#8, 0x4C#8, 0x03#8, 0x52#8]).block.Consistent ∧
    (inPhase .sendB 0x03#8 (readRegFields 1#32) [] [0x32#8, 0x4C#8, 0x03#8, 0x52#8]).block.phase = .sendB :=
  ⟨(consistent_sendA .ok).block, rfl, consistent_sendB.block, rfl⟩

theorem witness_ReceiveIsNeverEmpty : v25Count.block.Consistent ∧ v25Count.block.rxReqValid = true ∧
    (awaitingPayload 255#8 []).block.Consistent ∧ (awaitingPayload 255#8 []).block.rxReqValid = true :=
  ⟨consistent_waitCount.block, rfl, (consistent_waitPayload []).block, rfl⟩

theorem witness_PhasesWithoutEvent : v25Count.Consistent ∧ v25Count.env.resets = [] ∧
    v25Count.env.calls = [] ∧ v25Count.block.phase ≠ .delaying ∧ v25Count.offers = none :=
  ⟨consistent_waitCount, rfl, rfl, by decide, rfl⟩

theorem witness_EveryStepKeepsConsistency :
    (presented (readRegRequest 0#32)).Consistent ∧ (∃ t, step (presented (readRegRequest 0#32)) = .next t) ∧
    (sending .sendA .ok).Consistent ∧ ∃ t, step (sending .sendA .ok) = .next t :=
  ⟨consistent_idle _, ⟨_, rfl⟩, consistent_sendA _, ⟨_, rfl⟩⟩

theorem witness_TransactionsFollowThePlan : (sending .sendA .ok).Consistent ∧
    (sending .sendA .ok).TraceFollowsPlan ∧ ∃ t, step (sending .sendA .ok) = .next t := by
  refine ⟨consistent_sendA _, ?_, _, rfl⟩
  intro l p hl hp
  rfl

/-- `s` with a trace. -/
def traced (tr : List Transaction) (s : State) : State := { s with log := { Log.reset with trace := tr } }

/-- V3, failed on a zero status byte. -/
def v3 : State :=
  traced [.send [0x32#8, 0x41#8, 0x3C#8, 0x4C#8, 0x02#8, 0x57#8, 0x00#8, 0xAF#8] .ok,
    .recv 1 (.ok [0x00#8])] failedWrite

/-- V34, failed on its second send. -/
def v34 : State :=
  traced [.send restartOnly .ok, .recv 1 (.ok [0x01#8]),
    .send [0x32#8, 0x4C#8, 0x03#8, 0x52#8] (.err ⟨7⟩)]
    { State.reset with
      block := { Block.reset with
        phase := .failed, latch := some (latchOf 0x03#8 (readRegFields 1#32)), pbuf := some []
        txbuf := some [0x32#8, 0x4C#8, 0x03#8, 0x52#8], result := some (.err (.transport ⟨7⟩)) } }

/-- V1, done. -/
def v1 : State :=
  traced [.send [0x32#8, 0x41#8, 0x3C#8, 0x4C#8, 0x02#8, 0x57#8, 0x00#8, 0xAF#8] .ok,
    .recv 1 (.ok [0x01#8])] finishedWrite

/-- V9, refused. -/
def v9 : State :=
  { State.reset with
    block := { Block.reset with
      phase := .failed, latch := some (latchOf 0x00#8 (lengthFields 256#16)), pbuf := some []
      result := some (.err .protocol) } }

theorem consistent_v34 : v34.Consistent :=
  ⟨⟨rfl, rfl, _, _, _, rfl, rfl, rfl, by simp [Latch.rejected, latchOf], by decide⟩, rfl⟩

theorem consistent_v9 : v9.Consistent :=
  ⟨⟨rfl, rfl, _, _, _, rfl, rfl, rfl, by simp [Latch.rejected, latchOf, lengthFields], by decide⟩, rfl⟩

theorem trace_v3 : v3.TraceFollowsPlan := by
  rintro l p ⟨⟩ ⟨⟩
  exact .inr ⟨[_], _, .timeout, rfl, by decide, rfl, by decide, rfl, rfl⟩

theorem trace_v34 : v34.TraceFollowsPlan := by
  rintro l p ⟨⟩ ⟨⟩
  exact .inr ⟨[_, _], _, .transport ⟨7⟩, rfl, by decide, rfl, by decide, rfl, rfl⟩

theorem trace_v1 : v1.TraceFollowsPlan := by
  rintro l p ⟨⟩ ⟨⟩
  rfl

theorem trace_v9 : v9.TraceFollowsPlan := by
  rintro l p ⟨⟩ ⟨⟩
  exact .inl ⟨rfl, rfl⟩

theorem witness_TransactionsPerOperation :
    (v1.Consistent ∧ v1.TraceFollowsPlan ∧ v1.block.phase = .done ∧ v1.block.pbuf.isSome) ∧
    (v34.Consistent ∧ v34.TraceFollowsPlan ∧ v34.block.phase = .failed ∧
      ¬ (latchOf 0x03#8 (readRegFields 1#32)).rejected ∧ (sentMessages v34.log.trace).length = 2 ∧
      recvCount v34.log.trace = 1) ∧
    (v9.Consistent ∧ v9.TraceFollowsPlan ∧ v9.block.phase = .failed ∧
      (latchOf 0x00#8 (lengthFields 256#16)).rejected) :=
  ⟨⟨⟨consistent_done_write.block, rfl⟩, trace_v1, rfl, rfl⟩,
   ⟨consistent_v34, trace_v34, rfl, by simp [Latch.rejected, latchOf], rfl, rfl⟩,
   ⟨consistent_v9, trace_v9, rfl, by simp [Latch.rejected, latchOf, lengthFields]⟩⟩

theorem witness_ChannelSignals :
    ((sending .sendA .ok).block.txValid = true ∧ (sending .sendA .ok).block.txbuf = some restartOnly ∧
      restartOnly.length < 65536) ∧
    (v1Status.block.phase = .waitStatus ∧ v25Count.block.phase = .waitCount ∧
      (awaitingPayload 255#8 []).block.phase = .waitPayload) ∧
    (v34.block.rspValid = true ∧ v34.block.result = some (.err (.transport ⟨7⟩))) ∧
    (finishedWrite.block.rspValid = true ∧ finishedWrite.block.result = some (.ok 0#8)) ∧
    ((finished 2#8 [0x0C#8, 0x80#8]).block.rspValid = true ∧
      (finished 2#8 [0x0C#8, 0x80#8]).block.result = some (.ok 2#8) ∧
      (finished 2#8 [0x0C#8, 0x80#8]).block.rxbuf = some [0x0C#8, 0x80#8] ∧
      (2#8).toNat ≤ [0x0C#8, 0x80#8].length) := by decide

theorem witness_NeverStop : (presented (readRegRequest 1#32)).Consistent ∧
    (presented (readRegRequest 1#32)).RequestsOk ∧ (presented (readRegRequest 1#32)).env.calls = [] := by
  refine ⟨consistent_idle _, ?_, rfl⟩
  simp only [State.RequestsOk, presented, List.mem_singleton, forall_eq]
  decide

theorem witness_EveryStepIsARow : (sending .sendA .ok).Consistent ∧ (sending .sendA .ok).NoReset ∧
    (sending .sendA .ok).env.calls = [] ∧ ∃ t, step (sending .sendA .ok) = .next t :=
  ⟨consistent_sendA _, by simp [State.NoReset, sending, Env.reset], rfl, _, rfl⟩

theorem witness_FailureIsTerminal : failedWrite.block.phase = .failed ∧
    (∃ t, step failedWrite = .next t) ∧
    ∃ t, step { failedWrite with env := { Env.reset with resets := [0] } } = .next t :=
  ⟨rfl, ⟨_, rfl⟩, _, rfl⟩

/-- `s` with a reset due in the coming step. -/
def resetting (s : State) : State := { s with env := { s.env with resets := [0] } }

theorem witness_Reset : (resetting v25Count).env.resets = 0 :: [] ∧
    (resetting v25Count).block.phase.midOperation = true ∧ (resetting v25Count).block.txValid = false ∧
    (resetting State.reset).block.phase.midOperation = false ∧
    (resetting (sending .sendA .ok)).block.txValid = true := by decide

theorem witness_StepRuns :
    (decode (.wire .tag) [0x41#8, 0x14#8] = .ok (.setAddress 0x14#8, [])) ∧
    ((presented (readRegRequest 0#32)).env.calls = [] ∧ (presented (readRegRequest 0#32)).block.phase = .idle ∧
      (presented (readRegRequest 0#32)).env.reqs = [readRegRequest 0#32]) ∧
    (v25Count.env.calls = [] ∧ v25Count.block.phase = .waitCount ∧
      decode .reply [0x03#8] = .ok (.replyAccept 3#8, [])) ∧
    (∃ k rest, [2, 5] = (k + 1) :: rest) := by
  refine ⟨by decide, by decide, by decide, 1, [5], rfl⟩

/-- V25 before its request: the whole run's replies at hand. -/
def v25 : State :=
  { State.reset with
    env := { Env.reset with
      reqs := [readRegRequest 0#32], tx := [.ok]
      rx := [.byte 0x01#8, .byte 0x03#8, .byte 0x11#8, .byte 0x22#8, .byte 0x33#8, .byte 0x99#8] } }

theorem witness_ReadRegDelivers : v25.block = Block.reset ∧ v25.env.resets = [] ∧ v25.env.calls = [] ∧
    v25.env.rspReady = true ∧ v25.env.reqs = [⟨packDesc 0x03#8 (readRegFields 0#32), []⟩] ∧
    (readRegFields 0#32).delay = 0#32 ∧ v25.env.tx = .ok :: [] ∧ isAccepted 0x01#8 = true ∧
    isAccepted 0x03#8 = true ∧ [0x11#8, 0x22#8, 0x33#8].length = (0x03#8).toNat ∧
    v25.env.rx = [.byte 0x01#8, .byte 0x03#8] ++ [0x11#8, 0x22#8, 0x33#8].map RxItem.byte ++
      [.byte 0x99#8] := by decide

end Sys2Proof.Tests
end

/-! PROOFS. The state family: the invariant of the machine, its frames and its outputs (10_state.md). -/

namespace Sys2Proof.Machine

/-! ## Rows of the opcode table by format -/

/-- An op code above 5 names none of the single-code rows of the table (R49). -/
theorem ne_of_five_lt {op : Byte} (h : 5 < op.toNat) :
    op ≠ 0#8 ∧ op ≠ 1#8 ∧ op ≠ 2#8 ∧ op ≠ 3#8 ∧ op ≠ 4#8 ∧ op ≠ 5#8 := by
  refine ⟨?_, ?_, ?_, ?_, ?_, ?_⟩ <;> rintro rfl <;> simp at h

/-! The descriptor of a reserved row decodes to that row: the fixed high bits of its op code are those of
its own range and of no range the decoder tries before it (R49, R96). -/

theorem decodeDesc_reserved06 (lo : BitVec 1) (d : ReqFields) :
    decodeDesc (packDesc (3#7 ++ lo) d) = .reserved06 lo d := by
  have bits : ∀ lo : BitVec 1, let op : BitVec 8 := 3#7 ++ lo
      5 < op.toNat ∧ op.extractLsb' 1 7 = 3#7 ∧ op.extractLsb' 0 1 = lo := by decide
  simp [decodeDesc, ne_of_five_lt (bits lo).1, bits lo]

theorem decodeDesc_reserved08 (lo : BitVec 3) (d : ReqFields) :
    decodeDesc (packDesc (1#5 ++ lo) d) = .reserved08 lo d := by
  have bits : ∀ lo : BitVec 3, let op : BitVec 8 := 1#5 ++ lo
      5 < op.toNat ∧ op.extractLsb' 1 7 ≠ 3#7 ∧ op.extractLsb' 3 5 = 1#5 ∧ op.extractLsb' 0 3 = lo := by
      decide
  simp [decodeDesc, ne_of_five_lt (bits lo).1, bits lo]

theorem decodeDesc_reserved10 (lo : BitVec 4) (d : ReqFields) :
    decodeDesc (packDesc (1#4 ++ lo) d) = .reserved10 lo d := by
  have bits : ∀ lo : BitVec 4, let op : BitVec 8 := 1#4 ++ lo
      5 < op.toNat ∧ op.extractLsb' 1 7 ≠ 3#7 ∧ op.extractLsb' 3 5 ≠ 1#5 ∧ op.extractLsb' 4 4 = 1#4 ∧
      op.extractLsb' 0 4 = lo := by decide
  simp [decodeDesc, ne_of_five_lt (bits lo).1, bits lo]

theorem decodeDesc_reserved20 (lo : BitVec 5) (d : ReqFields) :
    decodeDesc (packDesc (1#3 ++ lo) d) = .reserved20 lo d := by
  have bits : ∀ lo : BitVec 5, let op : BitVec 8 := 1#3 ++ lo
      5 < op.toNat ∧ op.extractLsb' 1 7 ≠ 3#7 ∧ op.extractLsb' 3 5 ≠ 1#5 ∧ op.extractLsb' 4 4 ≠ 1#4 ∧
      op.extractLsb' 5 3 = 1#3 ∧ op.extractLsb' 0 5 = lo := by decide
  simp [decodeDesc, ne_of_five_lt (bits lo).1, bits lo]

theorem decodeDesc_reserved40 (lo : BitVec 6) (d : ReqFields) :
    decodeDesc (packDesc (1#2 ++ lo) d) = .reserved40 lo d := by
  have bits : ∀ lo : BitVec 6, let op : BitVec 8 := 1#2 ++ lo
      5 < op.toNat ∧ op.extractLsb' 1 7 ≠ 3#7 ∧ op.extractLsb' 3 5 ≠ 1#5 ∧ op.extractLsb' 4 4 ≠ 1#4 ∧
      op.extractLsb' 5 3 ≠ 1#3 ∧ op.extractLsb' 6 2 = 1#2 ∧ op.extractLsb' 0 6 = lo := by decide
  simp [decodeDesc, ne_of_five_lt (bits lo).1, bits lo]

theorem decodeDesc_reserved80 (lo : BitVec 7) (d : ReqFields) :
    decodeDesc (packDesc (1#1 ++ lo) d) = .reserved80 lo d := by
  have bits : ∀ lo : BitVec 7, let op : BitVec 8 := 1#1 ++ lo
      5 < op.toNat ∧ op.extractLsb' 1 7 ≠ 3#7 ∧ op.extractLsb' 3 5 ≠ 1#5 ∧ op.extractLsb' 4 4 ≠ 1#4 ∧
      op.extractLsb' 5 3 ≠ 1#3 ∧ op.extractLsb' 6 2 ≠ 1#2 ∧ op.extractLsb' 0 7 = lo := by decide
  simp [decodeDesc, ne_of_five_lt (bits lo).1, bits lo]

/-- Every request row is what the decoder reads from its own packed descriptor; in a busy phase it holds
that descriptor at the channel (R14, R15). -/
theorem request_row {i : Instr} (hi : i.format = .request) :
    ∃ d, decodeDesc (packDesc i.opCode d) = i ∧
      ∀ s : State, s.block.phase ≠ .idle → exec i s = .next (s.holdRequest i.opCode d) := by
  cases i with
  | writeRaw d => exact ⟨d, by simp [decodeDesc, Instr.opCode], fun s h => if_neg h⟩
  | readRaw d => exact ⟨d, by simp [decodeDesc, Instr.opCode], fun s h => if_neg h⟩
  | writeReg d => exact ⟨d, by simp [decodeDesc, Instr.opCode], fun s h => if_neg h⟩
  | readReg d => exact ⟨d, by simp [decodeDesc, Instr.opCode], fun s h => if_neg h⟩
  | setFreq d => exact ⟨d, by simp [decodeDesc, Instr.opCode], fun s h => if_neg h⟩
  | reserved05 d => exact ⟨d, by simp [decodeDesc, Instr.opCode], fun s h => if_neg h⟩
  | reserved06 lo d => exact ⟨d, decodeDesc_reserved06 lo d, fun s h => if_neg h⟩
  | reserved08 lo d => exact ⟨d, decodeDesc_reserved08 lo d, fun s h => if_neg h⟩
  | reserved10 lo d => exact ⟨d, decodeDesc_reserved10 lo d, fun s h => if_neg h⟩
  | reserved20 lo d => exact ⟨d, decodeDesc_reserved20 lo d, fun s h => if_neg h⟩
  | reserved40 lo d => exact ⟨d, decodeDesc_reserved40 lo d, fun s h => if_neg h⟩
  | reserved80 lo d => exact ⟨d, decodeDesc_reserved80 lo d, fun s h => if_neg h⟩
  | _ => cases hi

/-- A reply row is the reply step of some byte. -/
theorem reply_row {i : Instr} (hi : i.format = .reply) : ∃ b, ∀ s, exec i s = s.replyStep b := by
  cases i with
  | replyZero | errNone | errUnescape | errLength | errRead | errWriteData | errSendData | replyAccept =>
    exact ⟨_, fun _ => rfl⟩
  | _ => cases hi

/-- A wire row emits bytes of the codec or is refused; it touches nothing else (log 11). -/
theorem wire_row {i : Instr} {f : WireForm} (hi : i.format = .wire f) (s : State) :
    (∃ bs, exec i s = .next (s.emit bs)) ∨ ∃ r, exec i s = .refused r := by
  cases i with
  | packetKind | setAddress | setLength | setFrequency | write | writeRestart | read
  | segAddrRead | segWriteRestart | segReadFollow => exact .inl ⟨_, rfl⟩
  | readRestart => exact .inr ⟨_, rfl⟩
  | segRawWrite dev p =>
    by_cases h : p.length ≤ 255
    · exact .inl ⟨_, if_pos h⟩
    · exact .inr ⟨_, if_neg h⟩
  | segRegWrite dev reg p =>
    by_cases h : p.length ≤ 254
    · exact .inl ⟨_, if_pos h⟩
    · exact .inr ⟨_, if_neg h⟩
  | _ => cases hi

/-! ## The planned messages -/

theorem Latch.hasStatus.ne_setFreq {l : Latch} (h : l.hasStatus) : l.op ≠ 0x04#8 := by
  rcases h with h | h | h <;> simp [h]

theorem Latch.hasData.ne_setFreq {l : Latch} (h : l.hasData) : l.op ≠ 0x04#8 := by
  rcases h with h | h <;> simp [h]

theorem Latch.delayed.hasData {l : Latch} (h : l.delayed) : l.hasData := .inr h.1

/-- The op codes of an accepted request: a status byte opens the answer, or it is one of the two others. -/
theorem Accepted.op_cases {l : Latch} {p : List Byte} (h : Accepted l p) :
    l.op = 0x01#8 ∨ l.hasStatus ∨ l.op = 0x04#8 := by
  rcases opCode_cases l.op with h0 | h1 | h2 | h3 | h4 | h5
  · exact .inr (.inl (.inl h0))
  · exact .inl h1
  · exact .inr (.inl (.inr (.inl h2)))
  · exact .inr (.inl (.inr (.inr h3)))
  · exact .inr (.inr h4)
  · exact absurd (.inl h5) h.notRejected

theorem plannedSends_delayed {l : Latch} (h : l.delayed) (p : List Byte) :
    plannedSends l p = [buildWriteRestart l.dev l.reg, buildReadFollow l.n] := by
  simp [plannedSends, h.1, h.2]

theorem plannedSends_setFreq {l : Latch} (h : l.op = 0x04#8) (p : List Byte) :
    plannedSends l p = [Config.freqPacket (freqByte l.hz), Config.busResetPacket] := by
  simp [plannedSends, h]

/-- A reading operation that is not delayed sends one message. -/
theorem plannedSends_getLast {l : Latch} (h : l.hasData) (hd : ¬ l.delayed) (p : List Byte) :
    (plannedSends l p).getLast? = (plannedSends l p)[0]? := by
  rcases h with h1 | h3
  · simp [plannedSends, h1]
  · have h0 : l.delay = 0#32 := by simpa [Latch.delayed, h3] using hd
    simp [plannedSends, h3, h0]

theorem Accepted.first_send {l : Latch} {p : List Byte} (h : Accepted l p) :
    ∃ m, (plannedSends l p)[0]? = some m := by
  rcases h.op_cases with h1 | (h0 | h2 | h3) | h4
  · simp [plannedSends, h1]
  · simp [plannedSends, h0]
  · simp [plannedSends, h2]
  · by_cases hd : l.delay = 0#32 <;> simp [plannedSends, h3, hd]
  · simp [plannedSends, h4]

/-! ## Consistent states, phase by phase -/

/-- A register access in progress outside DELAYING: its request is latched and accepted, and neither
data nor a result nor a timer value is there yet. -/
structure Block.Running (b : Block) (l : Latch) (p : List Byte) : Prop where
  latch    : b.latch = some l
  pbuf     : b.pbuf = some p
  accepted : Accepted l p
  access   : l.op ≠ 0x04#8
  noReply  : b.NoReply
  timer    : b.timer = none

theorem Block.Consistent.of_sendA {b : Block} (h : b.Consistent) (hp : b.phase = .sendA) :
    ∃ l p, b.Running l p ∧ b.count = none ∧ b.txbuf = (plannedSends l p)[0]? := by
  simp only [Block.Consistent, hp] at h
  obtain ⟨hn, hc, ht, l, p, hl, hb, ha, hop, hm⟩ := h
  exact ⟨l, p, ⟨hl, hb, ha, hop, hn, ht⟩, hc, hm⟩

theorem Block.Consistent.of_waitStatus {b : Block} (h : b.Consistent) (hp : b.phase = .waitStatus) :
    ∃ l p, b.Running l p ∧ b.count = none ∧ l.hasStatus ∧ b.txbuf = (plannedSends l p)[0]? := by
  simp only [Block.Consistent, hp] at h
  obtain ⟨hn, hc, ht, l, p, hl, hb, ha, hop, hm⟩ := h
  exact ⟨l, p, ⟨hl, hb, ha, hop.ne_setFreq, hn, ht⟩, hc, hop, hm⟩

theorem Block.Consistent.of_sendB {b : Block} (h : b.Consistent) (hp : b.phase = .sendB) :
    ∃ l p, b.Running l p ∧ b.count = none ∧ l.delayed ∧ b.txbuf = (plannedSends l p)[1]? := by
  simp only [Block.Consistent, hp] at h
  obtain ⟨hn, hc, ht, l, p, hl, hb, ha, hop, hm⟩ := h
  exact ⟨l, p, ⟨hl, hb, ha, hop.hasData.ne_setFreq, hn, ht⟩, hc, hop, hm⟩

theorem Block.Consistent.of_waitCount {b : Block} (h : b.Consistent) (hp : b.phase = .waitCount) :
    ∃ l p, b.Running l p ∧ b.count = none ∧ l.hasData ∧ b.txbuf = (plannedSends l p).getLast? := by
  simp only [Block.Consistent, hp] at h
  obtain ⟨hn, hc, ht, l, p, hl, hb, ha, hop, hm⟩ := h
  exact ⟨l, p, ⟨hl, hb, ha, hop.ne_setFreq, hn, ht⟩, hc, hop, hm⟩

theorem Block.Consistent.of_waitPayload {b : Block} (h : b.Consistent) (hp : b.phase = .waitPayload) :
    ∃ l p c, b.Running l p ∧ b.count = some c ∧ isAccepted c = true ∧ l.hasData ∧
      b.txbuf = (plannedSends l p).getLast? := by
  simp only [Block.Consistent, hp] at h
  obtain ⟨hn, ht, l, p, c, hl, hb, ha, hop, hm, hc, hca⟩ := h
  exact ⟨l, p, c, ⟨hl, hb, ha, hop.ne_setFreq, hn, ht⟩, hc, hca, hop, hm⟩

theorem State.SendsHeld.eq_nil {s : State} (h : s.SendsHeld) (hr : s.block.phase ≠ .sendRst)
    (hd : s.block.phase ≠ .done) : s.sends = [] := by
  unfold State.SendsHeld at h
  split at h
  · contradiction
  · contradiction
  all_goals exact h

/-- The invariant speaks of the elements and the SET_FREQ outcomes only. -/
theorem State.Consistent.congr {s t : State} (h : s.Consistent) (hb : t.block = s.block)
    (hs : t.sends = s.sends) : t.Consistent where
  block := hb ▸ h.block
  sends := by simpa only [State.SendsHeld, hb, hs] using h.sends

theorem consistent_of_reset {s : State} (hb : s.block = Block.reset) (hs : s.sends = []) :
    s.Consistent where
  block := by rw [hb]; rfl
  sends := by rw [State.SendsHeld, hb]; exact hs

/-! ## What every step of the sequencer achieves -/

/-- The outcome of a step of `s`, other than a request's: a next state, consistent, with the requests
still waiting. -/
def State.Continues (s : State) (o : Out) : Prop :=
  ∃ t, o = .next t ∧ t.Consistent ∧ t.env.reqs = s.env.reqs

theorem State.Consistent.stays {s : State} (h : s.Consistent) : s.Continues (.next s) :=
  ⟨s, rfl, h, rfl⟩

/-- Failure entry from a register access in progress (R102). -/
theorem continues_raise {s t : State} {l : Latch} {p : List Byte} {k : BusError}
    (hr : t.block.Running l p) (hs : t.sends = []) (hq : t.env.reqs = s.env.reqs) (hk : k ≠ .protocol) :
    s.Continues (.next (t.raise k)) :=
  ⟨_, rfl, ⟨⟨hr.timer, hr.noReply.rxbuf, l, p, k, hr.latch, hr.pbuf, rfl,
    iff_of_false hk hr.accepted.notRejected, hr.access⟩, hs⟩, hq⟩

/-- The count byte is awaited next (rows 9, 15 and 18 of R91). -/
theorem continues_waitCount {s t : State} {l : Latch} {p : List Byte} (hr : t.block.Running l p)
    (hc : t.block.count = none) (hd : l.hasData) (hm : t.block.txbuf = (plannedSends l p).getLast?)
    (hs : t.sends = []) (hq : t.env.reqs = s.env.reqs) :
    s.Continues (.next (t.toPhase .waitCount)) :=
  ⟨_, rfl, ⟨⟨⟨hr.noReply.rxbuf, hr.noReply.result⟩, hc, hr.timer, l, p, hr.latch, hr.pbuf, hr.accepted,
    hd, hm⟩, hs⟩, hq⟩

theorem recvError_ne_protocol (e : TErr) : recvError e ≠ .protocol := by
  unfold recvError
  split <;> simp

/-- A send with a message in TXBUF waits, or goes on from a state with the same elements. -/
theorem continues_onSendDone {s : State} {m : List Byte} {k : SendStatus → State → Out}
    (h : s.Consistent) (hm : s.block.txbuf = some m)
    (hk : ∀ st t, t.block = s.block → t.sends = s.sends → t.env.reqs = s.env.reqs →
      s.Continues (k st t)) :
    s.Continues (s.onSendDone k) := by
  rcases onSendDone_cases k s with ⟨-, ho⟩ | ⟨_, _, -, hno, -⟩ | ⟨st, _, m', -, -, ho⟩
  · exact ho ▸ h.stays
  · simp [hm] at hno
  · exact ho ▸ hk st _ rfl rfl rfl

theorem continues_sendADone {s : State} (h : s.Consistent) (hp : s.block.phase = .sendA) :
    s.Continues s.sendADone := by
  obtain ⟨l, p, hr, hc, hm⟩ := h.block.of_sendA hp
  have hs : s.sends = [] := h.sends.eq_nil (by simp [hp]) (by simp [hp])
  obtain ⟨m, hfirst⟩ := hr.accepted.first_send
  refine continues_onSendDone h (hm.trans hfirst) fun st t hb hts hq => ?_
  rw [← hb] at hr hm hc
  cases st with
  | err e => exact continues_raise hr (hts.trans hs) hq (by simp)
  | ok =>
    simp only [hr.latch]
    rcases hr.accepted.op_cases with h1 | hstat | h4
    · rw [if_pos h1]
      have hlast := plannedSends_getLast (.inl h1) (by simp [Latch.delayed, h1]) p
      exact continues_waitCount hr hc (.inl h1) (hm.trans hlast.symm) (hts.trans hs) hq
    · have hn1 : l.op ≠ 0x01#8 := by rcases hstat with h | h | h <;> simp [h]
      rw [if_neg hn1]
      exact ⟨_, rfl, ⟨⟨⟨hr.noReply.rxbuf, hr.noReply.result⟩, hc, hr.timer, l, p, hr.latch, hr.pbuf,
        hr.accepted, hstat, hm⟩, hts.trans hs⟩, hq⟩
    · exact absurd h4 hr.access

theorem continues_sendBDone {s : State} (h : s.Consistent) (hp : s.block.phase = .sendB) :
    s.Continues s.sendBDone := by
  obtain ⟨l, p, hr, hc, hdel, hm⟩ := h.block.of_sendB hp
  have hs : s.sends = [] := h.sends.eq_nil (by simp [hp]) (by simp [hp])
  rw [plannedSends_delayed hdel] at hm
  refine continues_onSendDone h hm fun st t hb hts hq => ?_
  rw [← hb] at hr hm hc
  cases st with
  | err e => exact continues_raise hr (hts.trans hs) hq (by simp)
  | ok =>
    have hlast : t.block.txbuf = (plannedSends l p).getLast? := by rw [plannedSends_delayed hdel]; exact hm
    exact continues_waitCount hr hc hdel.hasData hlast (hts.trans hs) hq

theorem continues_sendFDone {s : State} (h : s.Consistent) (hp : s.block.phase = .sendF) :
    s.Continues s.sendFDone := by
  have hs : s.sends = [] := h.sends.eq_nil (by simp [hp]) (by simp [hp])
  have hb := h.block
  simp only [Block.Consistent, hp] at hb
  obtain ⟨hn, hc, ht, l, p, hl, hpb, ha, hop, hm⟩ := hb
  rw [plannedSends_setFreq hop] at hm
  refine continues_onSendDone h hm fun st t hb hts hq => ?_
  rw [← hb] at hn hc ht hl hpb
  have hnext : some Config.busResetPacket = (plannedSends l p)[1]? := by rw [plannedSends_setFreq hop]; rfl
  have hone : (t.sends ++ [st]).length = 1 := by simp [hts, hs]
  exact ⟨_, rfl, ⟨⟨⟨hn.rxbuf, hn.result⟩, hc, ht, l, p, hl, hpb, ha, hop, hnext⟩, hone⟩, hq⟩

theorem continues_sendRstDone {s : State} (h : s.Consistent) (hp : s.block.phase = .sendRst) :
    s.Continues s.sendRstDone := by
  have hs := h.sends
  have hb := h.block
  simp only [State.SendsHeld, hp] at hs
  simp only [Block.Consistent, hp] at hb
  obtain ⟨hn, hc, ht, l, p, hl, hpb, ha, hop, hm⟩ := hb
  rw [plannedSends_setFreq hop] at hm
  refine continues_onSendDone h hm fun st t hb hts hq => ?_
  rw [← hb] at hn hc ht hl hpb
  have hnd : ¬ l.hasData := fun hd => hd.ne_setFreq hop
  have htwo : (t.sends ++ [st]).length = if t.block.latch.map Latch.op = some 0x04#8 then 2 else 0 := by
    simp [hts, hs, hl, hop]
  exact ⟨_, rfl, ⟨⟨ht, l, p, 0#8, hl, hpb, ha, rfl, .inl ⟨hnd, rfl, hc, hn.rxbuf⟩⟩, htwo⟩, hq⟩


theorem continues_recvByteFails {s : State} {l : Latch} {p : List Byte} (h : s.Consistent)
    (hr : s.block.Running l p) (hs : s.sends = []) : s.Continues s.recvByteFails := by
  unfold State.recvByteFails
  rcases receive_one_cases s.env.rx with ⟨-, ho⟩ | ⟨b, rest, -, ho⟩ | ⟨e, rest, -, ho⟩
  · simpa only [ho] using h.stays
  · simpa only [ho] using h.stays
  · simp only [ho, State.rxFail_eq]
    exact continues_raise hr hs rfl (recvError_ne_protocol e)

/-- A complete receive has exactly the bytes it asked for (R42). -/
theorem receive_ok_length {k : Nat} {rx rest : List RxItem} {bs : List Byte}
    (h : receive k rx = .ok bs rest) : bs.length = k := by
  induction k generalizing rx rest bs with
  | zero => rw [receive_zero] at h; cases h; rfl
  | succ k ih =>
    match rx with
    | [] => cases h
    | .fail e :: more => cases h
    | .byte b :: more =>
      rw [receive] at h
      split at h
      · cases h
      · next hk => cases h; simp [ih hk]
      · cases h

theorem continues_payloadStep {s : State} (h : s.Consistent) (hp : s.block.phase = .waitPayload) :
    s.Continues s.payloadStep := by
  obtain ⟨l, p, c, hr, hc, hca, hd, -⟩ := h.block.of_waitPayload hp
  have hs : s.sends = [] := h.sends.eq_nil (by simp [hp]) (by simp [hp])
  simp only [State.payloadStep, hc]
  cases hrx : receive c.toNat s.env.rx with
  | pending => exact h.stays
  | err e rest => exact continues_raise (t := (s.setRx rest).record _) hr hs rfl (recvError_ne_protocol e)
  | ok bs rest =>
    have hnone : s.sends.length = if s.block.latch.map Latch.op = some 0x04#8 then 2 else 0 := by
      simp [hs, hr.latch, hr.access]
    exact ⟨_, rfl, ⟨⟨hr.timer, l, p, c, hr.latch, hr.pbuf, hr.accepted, rfl,
      .inr ⟨hd, hca, hc, bs, rfl, receive_ok_length hrx⟩⟩, hnone⟩, rfl⟩

theorem continues_delayStep {s : State} (h : s.Consistent) (hp : s.block.phase = .delaying) :
    s.Continues s.delayStep := by
  have hs : s.sends = [] := h.sends.eq_nil (by simp [hp]) (by simp [hp])
  have hb := h.block
  simp only [Block.Consistent, hp] at hb
  obtain ⟨hn, hc, l, p, x, hl, hpb, ha, hdel, hm, ht, hle⟩ := hb
  simp only [State.delayStep, ht]
  split
  · next hx =>
    have hle' : x - 1#32 ≤ l.delay := by bv_omega
    refine ⟨_, rfl, ⟨?_, ?_⟩, rfl⟩
    · simp only [Block.Consistent, hp]
      exact ⟨⟨hn.rxbuf, hn.result⟩, hc, l, p, _, hl, hpb, ha, hdel, hm, rfl, hle'⟩
    · simpa only [State.SendsHeld, hp] using hs
  · cases hlag : s.env.lags with
    | nil => exact h.stays
    | cons k rest =>
      cases k with
      | succ k => exact ⟨_, rfl, h.congr rfl rfl, rfl⟩
      | zero =>
        have hnext : some (buildReadFollow l.n) = (plannedSends l p)[1]? := by
          rw [plannedSends_delayed hdel]; rfl
        simp only [State.timerExpiry, hl]
        exact ⟨_, rfl, ⟨⟨⟨hn.rxbuf, hn.result⟩, hc, rfl, l, p, rfl, hpb, ha, hdel, hnext⟩, hs⟩, rfl⟩

/-- A consistent block with a response offers all the response needs (R16, R25, R26). -/
theorem Block.Consistent.response {b : Block} (h : b.Consistent)
    (hp : b.phase = .done ∨ b.phase = .failed) :
    ∃ r l data, b.result = some r ∧ b.latch = some l ∧ rspDataOf b.rxbuf r = some data := by
  rcases hp with hp | hp
  · simp only [Block.Consistent, hp] at h
    obtain ⟨-, l, p, len, hl, -, -, hr, ⟨-, h0, -, -⟩ | ⟨-, -, -, d, hd, hlen⟩⟩ := h
    · exact ⟨_, l, [], hr, hl, by simp [rspDataOf, h0]⟩
    · by_cases h0 : len = 0#8
      · exact ⟨_, l, [], hr, hl, by simp [rspDataOf, h0]⟩
      · exact ⟨_, l, _, hr, hl, by rw [rspDataOf, if_neg h0, hd, memRead_zero_eq hlen.ge]⟩
  · simp only [Block.Consistent, hp] at h
    obtain ⟨-, -, l, p, k, hl, -, hr, -⟩ := h
    exact ⟨_, l, [], hr, hl, rfl⟩

theorem continues_responseStep {s : State} (h : s.Consistent)
    (hp : s.block.phase = .done ∨ s.block.phase = .failed) : s.Continues s.responseStep := by
  obtain ⟨r, l, data, hr, hl, hd⟩ := h.block.response hp
  unfold State.responseStep
  split
  · simp only [hr, hl, hd]
    exact ⟨_, rfl, consistent_of_reset rfl rfl, rfl⟩
  · exact h.stays

/-- From a consistent state the agent of every phase moves to a consistent state. -/
theorem continues_agentStep {s : State} (h : s.Consistent) : s.Continues s.agentStep := by
  unfold State.agentStep
  split
  case h_1 => exact h.stays
  case h_2 hp => exact continues_sendADone h hp
  case h_3 hp =>
    obtain ⟨l, p, hr, -⟩ := h.block.of_waitStatus hp
    exact continues_recvByteFails h hr (h.sends.eq_nil (by simp [hp]) (by simp [hp]))
  case h_4 hp => exact continues_delayStep h hp
  case h_5 hp => exact continues_sendBDone h hp
  case h_6 hp =>
    obtain ⟨l, p, hr, -⟩ := h.block.of_waitCount hp
    exact continues_recvByteFails h hr (h.sends.eq_nil (by simp [hp]) (by simp [hp]))
  case h_7 hp => exact continues_payloadStep h hp
  case h_8 hp => exact continues_responseStep h (.inl hp)
  case h_9 hp => exact continues_responseStep h (.inr hp)
  case h_10 hp => exact continues_sendFDone h hp
  case h_11 hp => exact continues_sendRstDone h hp

/-! ## Replies -/

theorem continues_afterStatus {s t : State} {l : Latch} {p : List Byte} (hr : t.block.Running l p)
    (hc : t.block.count = none) (hst : l.hasStatus) (hm : t.block.txbuf = (plannedSends l p)[0]?)
    (hs : t.sends = []) (hq : t.env.reqs = s.env.reqs) : s.Continues t.afterStatus := by
  by_cases hw : l.op = 0x00#8 ∨ l.op = 0x02#8
  · have hnd : ¬ l.hasData := by rcases hw with h | h <;> simp [Latch.hasData, h]
    have hnone : t.sends.length = if t.block.latch.map Latch.op = some 0x04#8 then 2 else 0 := by
      simp [hs, hr.latch, hr.access]
    rw [afterStatus_write hr.latch hw]
    exact ⟨_, rfl, ⟨⟨hr.timer, l, p, 0#8, hr.latch, hr.pbuf, hr.accepted, rfl,
      .inl ⟨hnd, rfl, hc, hr.noReply.rxbuf⟩⟩, hnone⟩, hq⟩
  · have h3 : l.op = 0x03#8 := by simpa [Latch.hasStatus, not_or.1 hw] using hst
    rw [afterStatus_readReg hr.latch h3]
    split
    · next h0 =>
      have hlast := plannedSends_getLast (.inr h3) (fun hdel => hdel.2 h0) p
      exact continues_waitCount hr hc (.inr h3) (hm.trans hlast.symm) hs hq
    · next h0 =>
      exact ⟨_, rfl, ⟨⟨⟨hr.noReply.rxbuf, hr.noReply.result⟩, hc, l, p, l.delay, hr.latch, hr.pbuf,
        hr.accepted, ⟨h3, h0⟩, hm, rfl, BitVec.le_refl _⟩, hs⟩, hq⟩

theorem continues_statusStep {s : State} (h : s.Consistent) (hp : s.block.phase = .waitStatus) (b : Byte) :
    s.Continues (s.statusStep b) := by
  obtain ⟨l, p, hr, hc, hst, hm⟩ := h.block.of_waitStatus hp
  have hs : s.sends = [] := h.sends.eq_nil (by simp [hp]) (by simp [hp])
  rcases reply_class b with rfl | ⟨k, rfl⟩ | hb
  · exact continues_raise (t := s.record _) hr hs rfl (by simp)
  · rw [statusStep_err]
    exact continues_raise (t := s.record _) hr hs rfl (by simp)
  · rw [statusStep_accepted hb]
    exact continues_afterStatus (t := s.record _) hr hc hst hm hs rfl

theorem continues_countStep {s : State} (h : s.Consistent) (hp : s.block.phase = .waitCount) (b : Byte) :
    s.Continues (s.countStep b) := by
  obtain ⟨l, p, hr, hc, hd, hm⟩ := h.block.of_waitCount hp
  have hs : s.sends = [] := h.sends.eq_nil (by simp [hp]) (by simp [hp])
  rcases reply_class b with rfl | ⟨k, rfl⟩ | hb
  · exact continues_raise (t := s.record _) hr hs rfl (by simp)
  · rw [countStep_err]
    exact continues_raise (t := s.record _) hr hs rfl (by simp)
  · rw [countStep_accepted hb]
    exact ⟨_, rfl, ⟨⟨⟨hr.noReply.rxbuf, hr.noReply.result⟩, hr.timer, l, p, b, hr.latch, hr.pbuf,
      hr.accepted, hd, hm, rfl, hb⟩, hs⟩, rfl⟩

theorem continues_replyStep {s : State} (h : s.Consistent) (b : Byte) : s.Continues (s.replyStep b) := by
  by_cases h1 : s.block.phase = .waitStatus
  · rw [replyStep_waitStatus h1]; exact continues_statusStep h h1 b
  by_cases h2 : s.block.phase = .waitCount
  · rw [replyStep_waitCount h2]; exact continues_countStep h h2 b
  · rw [replyStep_other h1 h2]; exact ⟨_, rfl, h.congr rfl rfl, rfl⟩

/-! ## Requests -/

theorem Block.Consistent.of_idle {b : Block} (h : b.Consistent) (hp : b.phase = .idle) :
    b = Block.reset := by
  simpa only [Block.Consistent, hp] using h

/-- A request taken in IDLE is refused or accepted, and the state is consistent again; it stops the
machine only when `req_payload` has fewer than `plen` bytes (R15, R79; log 9). -/
theorem exec_request_consistent (v : Desc) {s : State} (h : s.Consistent) (hp : s.block.phase = .idle) :
    (∃ t, exec (decodeDesc v) s = .next t ∧ t.Consistent ∧ t.env = s.env) ∨
    (s.env.payload.length < (descFields v).plen.toNat ∧
      exec (decodeDesc v) s = .fault (.absent .pbuf)) := by
  have hb := h.block.of_idle hp
  have hc : s.block.count = none := by rw [hb]; rfl
  have ht : s.block.timer = none := by rw [hb]; rfl
  have hx : s.block.rxbuf = none := by rw [hb]; rfl
  have hr : s.block.result = none := by rw [hb]; rfl
  rcases exec_request_cases v s hp with ⟨hrej, ho⟩ | ⟨hacc, m, hm, ho⟩ | hfault
  · refine .inl ⟨_, ho, ⟨⟨ht, hx, _, _, _, rfl, rfl, rfl, iff_of_true rfl hrej, ?_⟩, rfl⟩, rfl⟩
    intro h4
    simp [Latch.rejected, h4] at hrej
  · refine .inl ⟨_, ho, ?_, rfl⟩
    split
    · next h4 => exact ⟨⟨⟨hx, hr⟩, hc, ht, _, _, rfl, rfl, hacc, h4, hm.symm⟩, rfl⟩
    · next h4 => exact ⟨⟨⟨hx, hr⟩, hc, ht, _, _, rfl, rfl, hacc, h4, hm.symm⟩, rfl⟩
  · exact .inr hfault

/-- Whatever instruction runs, a consistent state stays consistent. -/
theorem exec_keeps_consistency {i : Instr} {s t : State} (h : s.Consistent) (ho : exec i s = .next t) :
    t.Consistent := by
  cases hi : i.format with
  | request =>
    obtain ⟨d, hd, hbusy⟩ := request_row hi
    by_cases hp : s.block.phase = .idle
    · rw [← hd] at ho
      rcases exec_request_consistent (packDesc i.opCode d) h hp with ⟨u, hu, hc, -⟩ | ⟨-, hf⟩
      · rw [hu] at ho; cases ho; exact hc
      · rw [hf] at ho; cases ho
    · rw [hbusy s hp] at ho; cases ho; exact h.congr rfl rfl
  | wire f =>
    rcases wire_row hi s with ⟨bs, he⟩ | ⟨r, he⟩
    · rw [he] at ho; cases ho; exact h.congr rfl rfl
    · rw [he] at ho; cases ho
  | reply =>
    obtain ⟨b, hb⟩ := reply_row hi
    obtain ⟨u, hu, hc, -⟩ := continues_replyStep h b
    rw [hb s, hu] at ho; cases ho; exact hc

/-! ## Steps -/

/-- What a state offers to run differs from it by what was taken from a channel only. -/
theorem fetch_instr_frame {s t : State} {i : Instr} (h : s.fetch = .instr i t) :
    t.block = s.block ∧ t.sends = s.sends := by
  unfold State.fetch State.fetchCall State.fetchRequest State.fetchReply at h
  repeat' split at h
  all_goals cases h <;> exact ⟨rfl, rfl⟩

theorem work_keeps_consistency {s t : State} (h : s.Consistent) (ho : s.work = .next t) :
    t.Consistent := by
  unfold State.work at ho
  split at ho
  · next i u hf =>
    obtain ⟨hb, hs⟩ := fetch_instr_frame hf
    exact exec_keeps_consistency (h.congr hb hs) ho
  · cases ho
  · obtain ⟨u, hu, hc, -⟩ := continues_agentStep h
    rw [hu] at ho; cases ho; exact hc

/-- A step is the reset, or the work of the state with its pending reset one step nearer (R111; log 15). -/
theorem step_cases (s : State) :
    (∃ rest, step s = .next { s with env.resets := rest }.resetStep) ∨
    (∃ rs, step s = { s with env.resets := rs }.work) := by
  rcases resetDue_cases s with ⟨rest, -, hd⟩ | ⟨rs, -, hd⟩
  · exact .inl ⟨rest, by simp only [step, hd]⟩
  · exact .inr ⟨rs, by simp only [step, hd]⟩

/-- Settles O53: a reset leads to the reset values, and every other step keeps the invariant. -/
theorem everyStepKeepsConsistency : Obligations.EveryStepKeepsConsistency := by
  intro s t h ho
  rcases step_cases s with ⟨rest, hr⟩ | ⟨rs, hw⟩
  · rw [hr] at ho
    cases ho
    exact consistent_of_reset rfl rfl
  · have hrs : State.Consistent { s with env.resets := rs } := h.congr rfl rfl
    exact work_keeps_consistency hrs (hw ▸ ho)

/-- Without a codec call, a state offers the presented request in IDLE, the reply byte that has come in
WAIT_STATUS and WAIT_COUNT, and nothing else (R15, R18). -/
theorem fetch_cases {s : State} (hc : s.env.calls = []) :
    s.fetch = .nothing ∨
    (∃ r rest, s.block.phase = .idle ∧ s.env.reqs = r :: rest ∧
      s.fetch = .instr (decodeDesc r.desc) { s with env.reqs := rest, env.payload := r.payload }) ∨
    (∃ b rest, (s.block.phase = .waitStatus ∨ s.block.phase = .waitCount) ∧
      s.env.rx = .byte b :: rest ∧ s.fetch = .instr (decodeReplyByte b) (s.setRx rest)) := by
  have reply : s.fetchReply = .nothing ∨
      ∃ b rest, s.env.rx = .byte b :: rest ∧ s.fetchReply = .instr (decodeReplyByte b) (s.setRx rest) := by
    unfold State.fetchReply
    rcases receive_one_cases s.env.rx with ⟨-, h⟩ | ⟨b, rest, hrx, h⟩ | ⟨e, rest, -, h⟩
    · simp [h]
    · exact .inr ⟨b, rest, hrx, by simp [h]⟩
    · simp [h]
  rw [fetch_no_call hc]
  split
  · next hp =>
    unfold State.fetchRequest
    cases hq : s.env.reqs with
    | nil => exact .inl rfl
    | cons r rest => exact .inr (.inl ⟨r, rest, hp, rfl, rfl⟩)
  · next hp => exact reply.imp_right fun ⟨b, rest, hrx, h⟩ => .inr ⟨b, rest, .inl hp, hrx, h⟩
  · next hp => exact reply.imp_right fun ⟨b, rest, hrx, h⟩ => .inr ⟨b, rest, .inr hp, hrx, h⟩
  · exact .inl rfl

theorem State.RequestsOk.mono {s t : State} (h : s.RequestsOk) (hsub : ∀ r ∈ t.env.reqs, r ∈ s.env.reqs) :
    t.RequestsOk :=
  fun r hr => h r (hsub r hr)

theorem State.Continues.requestsOk {s : State} {o : Out} (h : s.Continues o) (hq : s.RequestsOk) :
    ∃ t, o = .next t ∧ t.RequestsOk := by
  obtain ⟨t, ho, -, hr⟩ := h
  exact ⟨t, ho, hq.mono fun _ h => hr ▸ h⟩

theorem work_never_stops {s : State} (h : s.Consistent) (hq : s.RequestsOk) (hc : s.env.calls = []) :
    ∃ t, s.work = .next t ∧ t.RequestsOk := by
  rcases fetch_cases hc with hf | ⟨r, rest, hp, hr, hf⟩ | ⟨b, rest, -, -, hf⟩
  · rw [work_nothing hf]
    exact (continues_agentStep h).requestsOk hq
  · rw [work_instr hf]
    have hlen : r.payload.length = (descFields r.desc).plen.toNat := hq r (by simp [hr])
    have ht : State.Consistent { s with env.reqs := rest, env.payload := r.payload } := h.congr rfl rfl
    rcases exec_request_consistent r.desc ht hp with ⟨t, ho, -, henv⟩ | ⟨hlt, -⟩
    · have hreqs : t.env.reqs = rest := congrArg Env.reqs henv
      exact ⟨t, ho, hq.mono fun q hm => hr ▸ List.mem_cons_of_mem r (hreqs ▸ hm)⟩
    · exact absurd hlen hlt.ne
  · rw [work_instr hf, exec_decodeReplyByte]
    have ht : (s.setRx rest).Consistent := h.congr rfl rfl
    exact (continues_replyStep ht b).requestsOk hq

/-- Settles O56: the agents' steps and the replies go on from every consistent state, and a request whose
payload has `plen` bytes never reads past PBUF. -/
theorem consistentStatesNeverStop : Obligations.ConsistentStatesNeverStop := by
  intro s h hq hc
  rcases step_cases s with ⟨rest, hr⟩ | ⟨rs, hw⟩
  · exact ⟨_, hr, hq⟩
  · rw [hw]
    exact work_never_stops (h.congr rfl rfl) hq hc

/-! ## Messages -/

/-- The payload of an accepted write can be length-prefixed (R67). -/
theorem Accepted.payload_le {l : Latch} {p : List Byte} (h : Accepted l p) :
    (l.op = 0x00#8 → p.length ≤ 255) ∧ (l.op = 0x02#8 → p.length ≤ 254) := by
  have hfit := h.pbufFits
  have hrej := h.notRejected
  simp only [Latch.rejected, not_or, not_and, not_lt] at hrej
  obtain ⟨-, hraw, hreg⟩ := hrej
  exact ⟨fun h0 => hfit.trans (hraw h0), fun h2 => hfit.trans (hreg h2)⟩

/-- The messages of an accepted register access have 4 to 261 bytes (R60). -/
theorem Accepted.send_length {l : Latch} {p m : List Byte} (h : Accepted l p) (hop : l.op ≠ 0x04#8)
    (hm : m ∈ plannedSends l p) : 4 ≤ m.length ∧ m.length ≤ 261 := by
  rcases h.op_cases with h1 | (h0 | h2 | h3) | h4
  · obtain rfl : m = buildReadRequest l.dev l.n := by simpa [plannedSends, h1] using hm
    simp [buildReadRequest, addressedSegment]
  · obtain rfl : m = buildWrite l.dev p := by simpa [plannedSends, h0] using hm
    have hlen := h.payload_le.1 h0
    simp only [buildWrite, addressedSegment, List.length_append, List.length_cons, List.length_nil]
    omega
  · obtain rfl : m = buildWriteRegister l.dev l.reg p := by simpa [plannedSends, h2] using hm
    have hlen := h.payload_le.2 h2
    simp only [buildWriteRegister, addressedSegment, List.length_append, List.length_cons, List.length_nil]
    omega
  · by_cases hd : l.delay = 0#32
    · obtain rfl : m = buildCombined l.dev l.reg l.n := by simpa [plannedSends, h3, hd] using hm
      simp [buildCombined, buildWriteRestart, buildReadFollow, addressedSegment]
    · rw [plannedSends_delayed ⟨h3, hd⟩, List.mem_pair] at hm
      rcases hm with rfl | rfl <;> simp [buildWriteRestart, buildReadFollow, addressedSegment]
  · exact absurd h4 hop

/-- Settles O11: TXBUF holds a planned message of an accepted register access. -/
theorem outstandingMessagesFitTheBuffer : Obligations.OutstandingMessagesFitTheBuffer := by
  intro b h hp
  have hv : b.txValid = true := by rcases hp with hp | hp <;> simp [Block.txValid, Phase.sending, hp]
  obtain ⟨l, p, m, hr, hm, htx⟩ : ∃ l p m, b.Running l p ∧ m ∈ plannedSends l p ∧ b.txbuf = some m := by
    rcases hp with hp | hp
    · obtain ⟨l, p, hr, -, htx⟩ := h.of_sendA hp
      obtain ⟨m, hm⟩ := hr.accepted.first_send
      exact ⟨l, p, m, hr, List.mem_of_getElem? hm, htx.trans hm⟩
    · obtain ⟨l, p, hr, -, hdel, htx⟩ := h.of_sendB hp
      rw [plannedSends_delayed hdel] at htx
      exact ⟨l, p, _, hr, by simp [plannedSends_delayed hdel], htx⟩
  have hdata : b.txData = some m := by rw [Block.txData, if_pos hv, htx]
  obtain ⟨hlo, hhi⟩ := hr.accepted.send_length hr.access hm
  refine ⟨m, hdata, hlo, hhi, ?_⟩
  rw [Block.txLen, hdata, Option.map_some, txLenOf, if_pos (by omega)]

/-! ## Requests in a busy phase and their frame in IDLE -/

/-- Settles O24: the descriptor that waits is the row's own, packed with its op code. -/
theorem busyBlockLeavesRequestsWaiting : Obligations.BusyBlockLeavesRequestsWaiting := by
  intro i s hi hp
  obtain ⟨d, hd, hbusy⟩ := request_row hi
  exact ⟨packDesc i.opCode d, hd, hbusy s hp⟩

/-- Settles O25: a refused request only raises PROTOCOL, an accepted one only starts its first send. -/
theorem requestsChangeNothingElse : Obligations.RequestsChangeNothingElse := by
  intro i s t hi hp ho
  obtain ⟨d, hd, -⟩ := request_row hi
  rw [← hd] at ho
  rcases exec_request_cases (packDesc i.opCode d) s hp with ⟨-, h⟩ | ⟨-, m, -, h⟩ | ⟨-, h⟩
  · rw [h] at ho; cases ho; simp
  · rw [h] at ho; cases ho
    split <;> simp
  · rw [h] at ho; cases ho

/-! ## Replies and the payload -/

/-- A stream that opens with the bytes a receive asks for completes it with them (R35, R42). -/
theorem receive_bytes (data : List Byte) (rest : List RxItem) :
    receive data.length (data.map RxItem.byte ++ rest) = .ok data rest := by
  induction data with
  | nil => simp
  | cons b data ih => simp [receive, ih]

/-- A complete payload receive ends the operation (R83, row 25 of R91). -/
theorem payloadStep_ok {s : State} {c : Byte} {bs : List Byte} {rest : List RxItem}
    (hc : s.block.count = some c) (h : receive c.toNat s.env.rx = .ok bs rest) :
    s.payloadStep = .next (({ s.setRx rest with block.rxbuf := some bs }.record
      (.recv c.toNat (.ok bs))).respondOk c) := by
  simp only [State.payloadStep, hc, h]

/-- Settles O43: WAIT_PAYLOAD offers no instruction, so the data bytes reach no reply row. -/
theorem payloadIsStoredUnchanged : Obligations.PayloadIsStoredUnchanged := by
  intro s c data rest hres hcalls hp hc hlen hrx
  have hf : s.fetch = .nothing := by simp [fetch_no_call hcalls, hp]
  have hrecv : receive c.toNat s.env.rx = .ok data rest := by rw [hrx, ← hlen, receive_bytes]
  have hagent : s.agentStep = s.payloadStep := by simp only [State.agentStep, hp]
  rw [step_of_nil hres, work_nothing hf, hagent]
  exact payloadStep_ok hc hrecv

/-- Settles O35: the accepted byte runs the status step, and the delay decides (rows 15 and 16). -/
theorem acceptedAcknowledgmentSelectsThePath : Obligations.AcceptedAcknowledgmentSelectsThePath := by
  intro b l s hp hb hl hop
  have hacc : isAccepted b = true := hb
  have hexec : exec (.replyAccept b) s = (s.record (.recv 1 (.ok [b]))).afterStatus :=
    (replyStep_waitStatus hp b).trans (statusStep_accepted hacc s)
  rw [hexec, afterStatus_readReg (s := s.record _) hl hop]
  exact ⟨fun h0 => if_pos h0, fun h0 => if_neg h0⟩

/-- Settles O36: the accepted byte runs the count step, which compares it with nothing. -/
theorem acceptedCountIsKept : Obligations.AcceptedCountIsKept := by
  intro b s hp hb
  have hacc : isAccepted b = true := hb
  exact (replyStep_waitCount hp b).trans (countStep_accepted hacc s)

/-! ## Outputs -/

/-- Settles O48: the reset state is one closed value, and its outputs are computed from it. -/
theorem resetStateHoldsTheResetValues : Obligations.ResetStateHoldsTheResetValues := by
  unfold Obligations.ResetStateHoldsTheResetValues
  decide

/-- The eleven codes of R20 are distinct. -/
theorem phase_code_injective {p q : Phase} (h : p.code = q.code) : p = q := by
  cases p <;> cases q <;> revert h <;> decide

/-- The three fields of the status output (R19). -/
theorem status_fields (b : Block) : b.status.extractLsb' 0 4 = b.phase.code ∧
    (b.status.getLsbD 4 = true ↔ b.phase ≠ .idle) ∧ b.status.extractLsb' 5 3 = 0#3 := by
  unfold Block.status
  cases b.phase <;> decide

/-- Settles O49: the status output gives the code back, and the code the phase. -/
theorem statusShowsPhaseAndBusy : Obligations.StatusShowsPhaseAndBusy := by
  refine ⟨fun b => ?_, by decide⟩
  obtain ⟨hcode, hbusy, hzero⟩ := status_fields b
  refine ⟨hcode, hbusy, hzero, fun c hc => phase_code_injective ?_⟩
  rw [← (status_fields c).1, hc, hcode]

theorem reqReady_iff {b : Block} : b.reqReady = true ↔ b.phase = .idle := by
  simp [Block.reqReady]

theorem rspValid_iff {b : Block} : b.rspValid = true ↔ b.phase = .done ∨ b.phase = .failed := by
  simp [Block.rspValid]

theorem txValid_iff {b : Block} :
    b.txValid = true ↔ b.phase = .sendA ∨ b.phase = .sendB ∨ b.phase = .sendF ∨ b.phase = .sendRst := by
  unfold Block.txValid
  cases b.phase <;> simp [Phase.sending]

theorem rxReqValid_iff {b : Block} : b.rxReqValid = true ↔
    b.phase = .waitStatus ∨ b.phase = .waitCount ∨ b.phase = .waitPayload := by
  unfold Block.rxReqValid
  cases b.phase <;> simp [Phase.receiving]

/-- `rsp_terr` of a result is the error of TRANSPORT, and of nothing else (R16). -/
theorem rspTerrOf_eq_some {r : Result} {e : TErr} : rspTerrOf r = some e ↔ r = .err (.transport e) := by
  rcases r with _ | _ | _ | _ | _ <;> simp [rspTerrOf]

/-- Settles O51, channel by channel. -/
theorem channelSignalsFollowThePhase : Obligations.ChannelSignalsFollowThePhase := by
  intro b
  refine ⟨reqReady_iff, rspValid_iff, txValid_iff, rxReqValid_iff, ?_, fun hv => ?_, ?_, ?_,
    fun r hv hr => ?_⟩
  · rw [txValid_iff, rxReqValid_iff]
    rintro ⟨h | h | h | h, h'⟩ <;> simp [h] at h'
  · have hdata : b.txData = b.txbuf := if_pos hv
    exact ⟨hdata, fun m hm hlen => ⟨txLenOf m, by simp [Block.txLen, hdata, hm], txLenOf_toNat hlen⟩⟩
  · rintro (h | h) <;> simp [Block.rxCount, h]
  · intro h
    simp [Block.rxCount, h]
  · have hdata : b.rspData = rspDataOf b.rxbuf r := by simp [Block.rspData, hv, hr]
    refine ⟨by simp [Block.rspDesc, hv, hr], fun e => ?_, fun k hk => ?_, fun h0 => ?_,
      fun len d hl hd hlen => ?_⟩
    · simp [Block.rspTerr, hv, hr, rspTerrOf_eq_some]
    · rw [hdata, hk]; rfl
    · rw [hdata, h0]; rfl
    · rw [hdata, hl, hd, rspDataOf]
      split
      · next h0 => simp [h0]
      · exact memRead_zero_eq hlen

/-! ## The reset state and the instruction a step runs -/

/-- Settles O52: the block holds no element, no request waits and no request is latched. -/
theorem resetStateIsConsistent : Obligations.ResetStateIsConsistent := by
  refine ⟨consistent_of_reset rfl rfl, ?_, ?_⟩
  · intro r hr
    cases hr
  · intro l p hl
    cases hl

/-- A step with no reset due works on the state with the pending reset one step nearer. -/
theorem step_of_later {s : State} {rs : List Nat}
    (h : s.env.resets = [] ∧ rs = [] ∨ ∃ k rest, s.env.resets = (k + 1) :: rest ∧ rs = k :: rest) :
    step s = { s with env.resets := rs }.work := by
  rcases h with ⟨h, rfl⟩ | ⟨k, rest, h, rfl⟩
  · rw [step_of_nil h, ← h]
  · simp [step, State.resetDue, h]

/-- Settles O59: in each of the three channels the fetch takes the head and decodes it. -/
theorem stepRunsTheDecodedInstruction : Obligations.StepRunsTheDecodedInstruction := by
  intro s rs hrs
  rw [step_of_later hrs]
  refine ⟨fun f bs calls i more hc hd => ?_, fun v p reqs hc hp hq => ?_, fun b rx i hc hp hrx hd => ?_⟩
  · apply work_instr
    rw [fetch_call (s := { s with env.resets := rs }) hc]
    have hw : decodeWire f bs = .ok (i, more) := hd
    simp [State.fetchCall, hw, hc]
  · apply work_instr
    simp [fetch_no_call, hc, hp, State.fetchRequest, hq]
  · apply work_instr
    obtain rfl : decodeReplyByte b = i := by simpa [decode, decodeReply] using hd
    rcases hp with hp | hp <;> simp [fetch_no_call, hc, hp, State.fetchReply, hrx, State.setRx]

end Sys2Proof.Machine

/-! PROOFS. The memory family: byte order and round trip of the encodings, what a receive takes from the
stream, and the channel trace of an operation (20_memory.md). -/

namespace Sys2Proof

/-! ## Descriptor bytes -/

/-- Reading the bytes of a descriptor from byte `a` on, least significant first, gives the bits from
`8 * a` on. -/
theorem foldr_descBytes_from (v : Desc) (k a : Nat) :
    ((List.range' a k).map fun j => v.extractLsb' (8 * j) 8).foldr
      (fun b acc => b.toNat + 256 * acc) 0 = v.toNat / 2 ^ (8 * a) % 2 ^ (8 * k) := by
  induction k generalizing a with
  | zero => simp [Nat.mod_one]
  | succ k ih =>
    have hbase : 2 ^ (8 * (a + 1)) = 2 ^ (8 * a) * 256 := by rw [Nat.mul_succ, Nat.pow_add]
    have hsize : 2 ^ (8 * (k + 1)) = 256 * 2 ^ (8 * k) := by rw [Nat.mul_succ, Nat.pow_add, Nat.mul_comm]
    rw [List.range'_succ, List.map_cons, List.foldr_cons, ih, hbase, hsize, Nat.mod_mul,
      Nat.div_div_eq_div_mul, BitVec.extractLsb'_toNat, Nat.shiftRight_eq_div_pow]

@[simp] theorem descOfBytes_descBytes (v : Desc) : descOfBytes (descBytes v) = v := by
  have h := foldr_descBytes_from v 16 0
  rw [← List.range_eq_range'] at h
  have hv : v.toNat / 2 ^ (8 * 0) % 2 ^ (8 * 16) = v.toNat := by
    simpa using Nat.mod_eq_of_lt v.isLt
  rw [descOfBytes, descBytes, h, hv, BitVec.ofNat_toNat, BitVec.setWidth_eq]

/-- Settles O4: the bytes are listed by index, and their little-endian value is the descriptor's. -/
theorem descriptorBytesAreLittleEndian : Obligations.DescriptorBytesAreLittleEndian := by
  intro v
  refine ⟨Laws.EncodedSize.descBytes_length v, fun j hj => ?_, descOfBytes_descBytes v⟩
  simp [descBytes, hj]

/-! ## Requests -/

theorem decode_descBytes (v : Desc) (rest : List Byte) :
    decode .request (descBytes v ++ rest) = .ok (decodeDesc v, rest) := by
  have hlen : (descBytes v).length = 16 := Laws.EncodedSize.descBytes_length v
  simp [decode, decodeRequest, hlen]

/-- A request row is encoded as the bytes of a descriptor that decodes to it (R48, R49). -/
theorem encode_request {i : Instr} (hi : i.format = .request) :
    ∃ v, encode i = descBytes v ∧ decodeDesc v = i := by
  cases i with
  | writeRaw d => exact ⟨_, rfl, by simp [decodeDesc, Instr.opCode]⟩
  | readRaw d => exact ⟨_, rfl, by simp [decodeDesc, Instr.opCode]⟩
  | writeReg d => exact ⟨_, rfl, by simp [decodeDesc, Instr.opCode]⟩
  | readReg d => exact ⟨_, rfl, by simp [decodeDesc, Instr.opCode]⟩
  | setFreq d => exact ⟨_, rfl, by simp [decodeDesc, Instr.opCode]⟩
  | reserved05 d => exact ⟨_, rfl, by simp [decodeDesc, Instr.opCode]⟩
  | reserved06 lo d => exact ⟨_, rfl, Machine.decodeDesc_reserved06 lo d⟩
  | reserved08 lo d => exact ⟨_, rfl, Machine.decodeDesc_reserved08 lo d⟩
  | reserved10 lo d => exact ⟨_, rfl, Machine.decodeDesc_reserved10 lo d⟩
  | reserved20 lo d => exact ⟨_, rfl, Machine.decodeDesc_reserved20 lo d⟩
  | reserved40 lo d => exact ⟨_, rfl, Machine.decodeDesc_reserved40 lo d⟩
  | reserved80 lo d => exact ⟨_, rfl, Machine.decodeDesc_reserved80 lo d⟩
  | _ => cases hi

/-! ## Wire tags and segments -/

/-- No command tag is the packet-kind byte, so its byte leads to its own argument (R51, R52). -/
theorem decodeTag_tagByte (t : Tag) (rest : List Byte) :
    decodeTag (tagByte t :: rest) = decodeTagArg t rest := by
  cases t <;> rfl

theorem decode_encode_tag {i : Instr} (hi : i.format = .wire .tag) (rest : List Byte) :
    decodeTag (encode i ++ rest) = .ok (i, rest) := by
  cases i with
  | packetKind => rfl
  | setAddress | setLength | setFrequency | write | writeRestart | read | readRestart =>
    exact decodeTag_tagByte _ _
  | _ => cases hi

/-- The length byte is exact under the limit of R67. -/
theorem lengthByte_toNat {k : Nat} (h : k ≤ 255) : (lengthByte k).toNat = k := by
  simp only [lengthByte, BitVec.toNat_ofNat]
  omega

/-- The header of an addressed segment leads to its command and body (R54). -/
theorem decodeSegment_addressed (reg : Bool) (dev len : Byte) (cmd : Tag) (body rest : List Byte) :
    decodeSegment reg (addressedSegment dev len cmd body ++ rest) =
      decodeBody reg dev len (tagByte cmd) (body ++ rest) :=
  rfl

/-! The body of a segment is the bytes its length byte counts, and what follows is left (R55, R56). -/

theorem decodeBody_read (reg : Bool) (dev n : Byte) (rest : List Byte) :
    decodeBody reg dev n (tagByte .read) rest = .ok (.segAddrRead dev n, rest) := by
  simp [decodeBody]

theorem decodeBody_writeRestart (dev r : Byte) (rest : List Byte) :
    decodeBody true dev 1#8 (tagByte .writeRestart) (r :: rest) = .ok (.segWriteRestart dev r, rest) := by
  simp [decodeBody, tagByte]

theorem decodeBody_rawWrite (dev : Byte) {len : Byte} {p : List Byte} (hlen : len.toNat = p.length)
    (rest : List Byte) :
    decodeBody false dev len (tagByte .write) (p ++ rest) = .ok (.segRawWrite dev p, rest) := by
  simp [decodeBody, tagByte, hlen]

theorem decodeBody_regWrite (dev r : Byte) {len : Byte} {p : List Byte} (hlen : len.toNat = p.length + 1)
    (rest : List Byte) :
    decodeBody true dev len (tagByte .write) (r :: p ++ rest) = .ok (.segRegWrite dev r p, rest) := by
  simp [decodeBody, tagByte, hlen]

theorem decode_encode_rawSegment {i : Instr} (hi : i.format = .wire .rawSegment) (hw : i.WellFormed)
    (rest : List Byte) : decodeSegment false (encode i ++ rest) = .ok (i, rest) := by
  cases i with
  | segRawWrite dev p =>
    have hp : p.length ≤ 255 := of_decide_eq_true hw
    exact (decodeSegment_addressed false dev _ .write p rest).trans
      (decodeBody_rawWrite dev (lengthByte_toNat hp) rest)
  | segAddrRead dev n =>
    exact (decodeSegment_addressed false dev n .read [] rest).trans (decodeBody_read false dev n rest)
  | segReadFollow n => rfl
  | _ => cases hi

theorem decode_encode_regSegment {i : Instr} (hi : i.format = .wire .regSegment) (hw : i.WellFormed)
    (rest : List Byte) : decodeSegment true (encode i ++ rest) = .ok (i, rest) := by
  cases i with
  | segRegWrite dev r p =>
    have hp : p.length ≤ 254 := of_decide_eq_true hw
    exact (decodeSegment_addressed true dev _ .write (r :: p) rest).trans
      (decodeBody_regWrite dev r (lengthByte_toNat (by omega)) rest)
  | segWriteRestart dev r =>
    exact (decodeSegment_addressed true dev 1#8 .writeRestart [r] rest).trans
      (decodeBody_writeRestart dev r rest)
  | _ => cases hi

/-! ## Replies -/

/-- A reply row is encoded as the one byte of its class (R61, R62). -/
theorem encode_reply {i : Instr} (hi : i.format = .reply) (hw : i.WellFormed) :
    ∃ b, encode i = [b] ∧ decodeReplyByte b = i := by
  cases i with
  | replyZero | errNone | errUnescape | errLength | errRead | errWriteData | errSendData =>
    exact ⟨_, rfl, rfl⟩
  | replyAccept b =>
    obtain ⟨h0, hk⟩ := Machine.isAccepted_iff.1 hw
    exact ⟨b, rfl, by simp [decodeReplyByte, h0, hk]⟩
  | _ => cases hi

/-- Settles O1, format by format. -/
theorem decodeOfEncodeIsTheInstruction : Obligations.DecodeOfEncodeIsTheInstruction := by
  intro i rest hw
  cases hi : i.format with
  | request =>
    obtain ⟨v, henc, hdec⟩ := encode_request hi
    rw [henc, decode_descBytes, hdec]
  | wire f =>
    cases f with
    | tag => exact decode_encode_tag hi rest
    | rawSegment => exact decode_encode_rawSegment hi hw rest
    | regSegment => exact decode_encode_regSegment hi hw rest
  | reply =>
    obtain ⟨b, henc, hdec⟩ := encode_reply hi hw
    rw [henc, ← hdec]
    rfl

end Sys2Proof

namespace Sys2Proof.Machine

/-! ## Receives -/

/-- A complete receive took the items it returns, all bytes, off the stream (R35, R42). -/
theorem receive_ok_stream {k : Nat} {rx rest : List RxItem} {bs : List Byte}
    (h : receive k rx = .ok bs rest) : rx = bs.map RxItem.byte ++ rest := by
  induction k generalizing rx rest bs with
  | zero => rw [receive_zero] at h; cases h; rfl
  | succ k ih =>
    match rx with
    | [] => cases h
    | .fail e :: more => cases h
    | .byte b :: more =>
      rw [receive] at h
      split at h
      · cases h
      · next hk => cases h; simp [ih hk]
      · cases h

/-- A failed receive took the first error, before its bytes were complete, and left every byte (R36,
R42; log 2). -/
theorem receive_err_stream {k : Nat} {rx rest : List RxItem} {e : TErr}
    (h : receive k rx = .err e rest) :
    ∃ (bs : List Byte) (more : List RxItem), bs.length < k ∧
      rx = bs.map RxItem.byte ++ .fail e :: more ∧ rest = bs.map RxItem.byte ++ more := by
  induction k generalizing rx rest with
  | zero => rw [receive_zero] at h; cases h
  | succ k ih =>
    match rx with
    | [] => cases h
    | .fail e' :: more => cases h; exact ⟨[], rest, by simp, rfl, rfl⟩
    | .byte b :: left =>
      rw [receive] at h
      split at h
      · cases h
      · cases h
      · next hk =>
        cases h
        obtain ⟨bs, more, hlen, hrx, hrest⟩ := ih hk
        exact ⟨b :: bs, more, by simpa using hlen, by simp [hrx], by simp [hrest]⟩

/-- A receiving phase asks for one byte or for COUNT, and an accepted count is not zero (R24, R62). -/
theorem Block.Consistent.rxCount_pos {b : Block} (h : b.Consistent) (hv : b.rxReqValid = true) :
    ∃ k : Byte, b.rxCount = some k ∧ 1 ≤ k.toNat := by
  rcases rxReqValid_iff.1 hv with hp | hp | hp
  · exact ⟨1#8, by simp [Block.rxCount, hp], by decide⟩
  · exact ⟨1#8, by simp [Block.rxCount, hp], by decide⟩
  · obtain ⟨l, p, c, -, hc, hacc, -⟩ := h.of_waitPayload hp
    obtain ⟨h0, -⟩ := isAccepted_iff.1 hacc
    exact ⟨c, by simp [Block.rxCount, hp, hc], by bv_omega⟩

/-- Settles O38: the two ways a receive ends, and the count of each receiving phase. -/
theorem receiveTakesExactlyItsBytes : Obligations.ReceiveTakesExactlyItsBytes :=
  ⟨fun _ _ _ _ h => ⟨receive_ok_length h, receive_ok_stream h⟩, fun _ _ _ _ h => receive_err_stream h,
    fun _ h hv => h.rxCount_pos hv⟩

/-- What the block asks a receive for, by phase (R18). -/
theorem rxCount_cases {b : Block} {k : Byte} (h : b.rxCount = some k) :
    ((b.phase = .waitStatus ∨ b.phase = .waitCount) ∧ k = 1#8) ∨
    (b.phase = .waitPayload ∧ b.count = some k) := by
  unfold Block.rxCount at h
  split at h
  · next hp => cases h; exact .inl ⟨.inl hp, rfl⟩
  · next hp => cases h; exact .inl ⟨.inr hp, rfl⟩
  · next hp => exact .inr ⟨hp, h⟩
  all_goals cases h

theorem recvByteFails_err {s : State} {e : TErr} {rest : List RxItem}
    (h : receive 1 s.env.rx = .err e rest) :
    s.recvByteFails = .next (((s.setRx rest).record (.recv 1 (.err e))).raise (recvError e)) := by
  simp [State.recvByteFails, h]

theorem payloadStep_err {s : State} {c : Byte} {e : TErr} {rest : List RxItem}
    (hc : s.block.count = some c) (h : receive c.toNat s.env.rx = .err e rest) :
    s.payloadStep = .next (((s.setRx rest).record (.recv c.toNat (.err e))).raise (recvError e)) := by
  simp [State.payloadStep, hc, h]

/-- Settles O42: an error in the stream is no instruction, so the phase's agent takes it. -/
theorem failedReceivesFailTheOperation : Obligations.FailedReceivesFailTheOperation := by
  intro s k e rest hres hcalls hk hrx
  rw [step_of_nil hres]
  rcases rxCount_cases hk with ⟨hp, rfl⟩ | ⟨hp, hc⟩
  · have hrx1 : receive 1 s.env.rx = .err e rest := hrx
    have hf : s.fetch = .nothing := by
      rcases hp with hp | hp <;> simp [fetch_no_call hcalls, hp, State.fetchReply, hrx1]
    have hagent : s.agentStep = s.recvByteFails := by
      rcases hp with hp | hp <;> simp only [State.agentStep, hp]
    rw [work_nothing hf, hagent]
    exact recvByteFails_err hrx1
  · have hf : s.fetch = .nothing := by simp [fetch_no_call hcalls, hp]
    have hagent : s.agentStep = s.payloadStep := by simp only [State.agentStep, hp]
    rw [work_nothing hf, hagent]
    exact payloadStep_err hc hrx

end Sys2Proof.Machine

namespace Sys2Proof.Machine

/-! ## The plan of an operation -/

theorem plan_length_write {l : Latch} (h : l.op = 0x00#8 ∨ l.op = 0x02#8) (p : List Byte) :
    (plan l p).length = 2 := by
  rcases h with h | h <;> simp [plan, h]

theorem plan_delayed {l : Latch} (h : l.delayed) (p : List Byte) :
    plan l p = [.send (buildWriteRestart l.dev l.reg), .recv, .send (buildReadFollow l.n), .recv, .recv] := by
  simp [plan, h.1, h.2]

theorem plan_length_readRaw {l : Latch} (h : l.op = 0x01#8) (p : List Byte) : (plan l p).length = 3 := by
  simp [plan, h]

theorem plan_length_readReg {l : Latch} (h : l.op = 0x03#8) (h0 : l.delay = 0#32) (p : List Byte) :
    (plan l p).length = 4 := by
  simp [plan, h, h0]

theorem plan_setFreq {l : Latch} (h : l.op = 0x04#8) (p : List Byte) :
    plan l p = [.send (Config.freqPacket (freqByte l.hz)), .send Config.busResetPacket] := by
  simp [plan, h]

/-- The status byte comes second (R82). -/
theorem plan_status {l : Latch} (h : l.hasStatus) (p : List Byte) : (plan l p)[1]? = some .recv := by
  rcases h with h | h | h
  · simp [plan, h]
  · simp [plan, h]
  · by_cases h0 : l.delay = 0#32 <;> simp [plan, h, h0]

/-- The count and the payload come last (R83). -/
theorem plan_data {l : Latch} (h : l.hasData) (p : List Byte) :
    (plan l p)[(plan l p).length - 2]? = some .recv ∧ (plan l p)[(plan l p).length - 1]? = some .recv := by
  rcases h with h | h
  · simp [plan, h]
  · by_cases h0 : l.delay = 0#32 <;> simp [plan, h, h0]

/-! ## A register access on its plan -/

/-- Where a register access that waits stands among the `n` transactions of its plan (R44, R90). -/
def Phase.madeOf (n : Nat) : Phase → Option Nat
  | .sendA            => some 0
  | .waitStatus       => some 1
  | .delaying | .sendB => some 2
  | .waitCount        => some (n - 2)
  | .waitPayload      => some (n - 1)
  | .idle | .done | .failed | .sendF | .sendRst => none

/-- The request `l` with payload `p` is latched, and its first `k` planned transactions have been made,
all of them well. -/
structure State.OnPlan (s : State) (l : Latch) (p : List Byte) (k : Nat) : Prop where
  latch  : s.block.latch = some l
  pbuf   : s.block.pbuf = some p
  issued : s.Issued l p k
  clean  : s.Clean

/-- No transaction has been made when the first is about to be. -/
theorem issued_zero_and_clean {s : State} {l : Latch} {p : List Byte} :
    s.Issued l p 0 ∧ s.Clean ↔ s.log.trace = [] := by
  constructor
  · rintro ⟨hi, -⟩
    simpa [State.Issued] using hi
  · intro h
    simp [State.Issued, State.Clean, h]

/-- While a register access waits, following the plan is to stand at the phase's place in it. -/
theorem traceFollowsPlan_iff_onPlan {s : State} {l : Latch} {p : List Byte} {k : Nat} {ph : Phase}
    (hl : s.block.latch = some l) (hp : s.block.pbuf = some p) (hph : s.block.phase = ph)
    (hk : ph.madeOf (plan l p).length = some k) : s.TraceFollowsPlan ↔ s.OnPlan l p k := by
  have honPlan : s.OnPlan l p k ↔ s.Issued l p k ∧ s.Clean :=
    ⟨fun h => ⟨h.issued, h.clean⟩, fun h => ⟨hl, hp, h.1, h.2⟩⟩
  rw [honPlan]
  unfold Phase.madeOf at hk
  split at hk <;> cases hk
  case h_1 => simp [State.TraceFollowsPlan, hl, hp, hph, issued_zero_and_clean]
  all_goals simp [State.TraceFollowsPlan, hl, hp, hph]

theorem Block.Running.onPlan {s : State} {l : Latch} {p : List Byte} {k : Nat} {ph : Phase}
    (hr : s.block.Running l p) (hf : s.TraceFollowsPlan) (hph : s.block.phase = ph)
    (hk : ph.madeOf (plan l p).length = some k) : s.OnPlan l p k :=
  (traceFollowsPlan_iff_onPlan hr.latch hr.pbuf hph hk).1 hf

/-- The place in the plan is a matter of the request and the trace only. -/
theorem State.OnPlan.congr {s t : State} {l : Latch} {p : List Byte} {k : Nat} (h : s.OnPlan l p k)
    (hl : t.block.latch = s.block.latch) (hp : t.block.pbuf = s.block.pbuf)
    (ht : t.log.trace = s.log.trace) : t.OnPlan l p k where
  latch := hl.trans h.latch
  pbuf := hp.trans h.pbuf
  issued := by simpa only [State.Issued, ht] using h.issued
  clean := by simpa only [State.Clean, ht] using h.clean

theorem State.OnPlan.follows {s t : State} {l : Latch} {p : List Byte} {k : Nat} {ph : Phase}
    (h : s.OnPlan l p k) (hl : t.block.latch = s.block.latch) (hp : t.block.pbuf = s.block.pbuf)
    (ht : t.log.trace = s.log.trace) (hph : t.block.phase = ph)
    (hk : ph.madeOf (plan l p).length = some k) : t.TraceFollowsPlan :=
  (traceFollowsPlan_iff_onPlan (hl.trans h.latch) (hp.trans h.pbuf) hph hk).2 (h.congr hl hp ht)

/-! ## One more transaction -/

theorem State.Issued.record {s : State} {l : Latch} {p : List Byte} {k : Nat} {x : Transaction}
    (h : s.Issued l p k) (hx : (plan l p)[k]? = some x.planned) : (s.record x).Issued l p (k + 1) :=
  planned_append h hx

/-- The next planned transaction goes well. -/
theorem State.OnPlan.record {s : State} {l : Latch} {p : List Byte} {k : Nat} {x : Transaction}
    (h : s.OnPlan l p k) (hx : (plan l p)[k]? = some x.planned) (hok : x.succeeded = true) :
    (s.record x).OnPlan l p (k + 1) where
  latch := h.latch
  pbuf := h.pbuf
  issued := h.issued.record hx
  clean y hy := by
    rcases List.mem_append.1 hy with hy | hy
    · exact h.clean y hy
    · rwa [List.mem_singleton.1 hy]

/-- The next planned transaction goes wrong and ends the operation with its failure (R88, R101, R102). -/
theorem State.OnPlan.raise {s : State} {l : Latch} {p : List Byte} {k : Nat} {x : Transaction}
    {e : BusError} (h : s.OnPlan l p k) (hx : (plan l p)[k]? = some x.planned)
    (hbad : x.failure = some e) : ((s.record x).raise e).TraceFollowsPlan := by
  obtain ⟨hk, -⟩ := List.getElem?_eq_some_iff.1 hx
  have hlen : s.log.trace.length = k := by
    have hmap := congrArg List.length h.issued
    rw [List.length_map, List.length_take] at hmap
    omega
  intro l' p' hl hp
  cases h.latch.symm.trans hl
  cases h.pbuf.symm.trans hp
  exact .inr ⟨s.log.trace, x, e, rfl, hlen ▸ hk, hlen ▸ h.issued.record hx, h.clean, hbad, rfl⟩

/-- A reply byte that is zero or an error code is a failed transaction (R82, R83). -/
theorem failure_recv_zero : (Transaction.recv 1 (.ok [0#8])).failure = some .timeout := rfl

theorem failure_recv_errByte (k : ErrorKind) :
    (Transaction.recv 1 (.ok [errByte k])).failure = some (.device k) := by
  simp [Transaction.failure, decodeStatus_errByte]

/-- An operation that goes to DONE has made all its planned transactions. -/
theorem traceFollowsPlan_respondOk {s : State} {l : Latch} {p : List Byte} {len : Byte}
    (hl : s.block.latch = some l) (hp : s.block.pbuf = some p) (h : s.Issued l p (plan l p).length) :
    (s.respondOk len).TraceFollowsPlan := by
  intro l' p' hl' hp'
  cases hl.symm.trans hl'
  cases hp.symm.trans hp'
  exact h

/-- The claim speaks of the elements and the trace only. -/
theorem State.TraceFollowsPlan.congr {s t : State} (h : s.TraceFollowsPlan) (hb : t.block = s.block)
    (ht : t.log.trace = s.log.trace) : t.TraceFollowsPlan := by
  simpa only [State.TraceFollowsPlan, State.Issued, State.Clean, State.FailedTrace, hb, ht] using h

theorem traceFollowsPlan_of_reset {s : State} (hb : s.block = Block.reset) : s.TraceFollowsPlan := by
  intro l p hl
  rw [hb] at hl
  cases hl

/-! ## The agents' steps -/

/-- If the outcome is a next state, its trace follows the plan. -/
def Follows (o : Out) : Prop := ∀ t, o = .next t → t.TraceFollowsPlan

theorem follows_next {t : State} (h : t.TraceFollowsPlan) : Follows (.next t) := by
  rintro _ ⟨⟩
  exact h

theorem follows_onSendDone {s : State} {m : List Byte} {k : SendStatus → State → Out}
    (hf : s.TraceFollowsPlan) (hm : s.block.txbuf = some m)
    (hk : ∀ st, Follows (k st (s.popTx.record (.send m st)))) : Follows (s.onSendDone k) := by
  rcases onSendDone_cases k s with ⟨-, ho⟩ | ⟨_, _, -, hno, -⟩ | ⟨st, _, m', -, hm', ho⟩
  · exact ho ▸ follows_next hf
  · simp [hm] at hno
  · cases hm.symm.trans hm'
    exact ho ▸ hk st

theorem follows_sendADone {s : State} (h : s.Consistent) (hf : s.TraceFollowsPlan)
    (hp : s.block.phase = .sendA) : Follows s.sendADone := by
  obtain ⟨l, p, hr, -, htx⟩ := h.block.of_sendA hp
  obtain ⟨m, hm⟩ := hr.accepted.first_send
  have hon : s.popTx.OnPlan l p 0 := (hr.onPlan hf hp rfl).congr rfl rfl rfl
  refine follows_onSendDone hf (htx.trans hm) fun st => ?_
  cases st with
  | err e => exact follows_next (hon.raise (plan_head hm) rfl)
  | ok =>
    have hsent := hon.record (x := .send m .ok) (plan_head hm) rfl
    simp only [hsent.latch]
    have hplace : Phase.madeOf (plan l p).length (if l.op = 0x01#8 then .waitCount else .waitStatus) =
        some 1 := by
      split
      · next h1 => simp [Phase.madeOf, plan_length_readRaw h1]
      · rfl
    exact follows_next (hsent.follows rfl rfl rfl rfl hplace)

theorem follows_sendBDone {s : State} (h : s.Consistent) (hf : s.TraceFollowsPlan)
    (hp : s.block.phase = .sendB) : Follows s.sendBDone := by
  obtain ⟨l, p, hr, -, hdel, htx⟩ := h.block.of_sendB hp
  have hplan := plan_delayed hdel p
  have hon : s.popTx.OnPlan l p 2 := (hr.onPlan hf hp rfl).congr rfl rfl rfl
  have hnext : (plan l p)[2]? = some (.send (buildReadFollow l.n)) := by rw [hplan]; rfl
  rw [plannedSends_delayed hdel] at htx
  refine follows_onSendDone hf htx fun st => ?_
  cases st with
  | err e => exact follows_next (hon.raise hnext rfl)
  | ok =>
    have hsent := hon.record (x := .send _ .ok) hnext rfl
    exact follows_next (hsent.follows rfl rfl rfl (ph := .waitCount) rfl (by rw [hplan]; rfl))

/-- The two sends of SET_FREQ are its plan, whatever they return (R92, R95). -/
theorem follows_sendFDone {s : State} (h : s.Consistent) (hf : s.TraceFollowsPlan)
    (hp : s.block.phase = .sendF) : Follows s.sendFDone := by
  have hb := h.block
  simp only [Block.Consistent, hp] at hb
  obtain ⟨-, -, -, l, p, hl, hpb, -, hop, htx⟩ := hb
  have hnone : s.popTx.Issued l p 0 := by
    have htr : s.log.trace = [] := by simpa [State.TraceFollowsPlan, hp, hl, hpb] using hf
    simp [State.Issued, htr]
  rw [plannedSends_setFreq hop] at htx
  refine follows_onSendDone hf htx fun st => follows_next fun l' p' hl' hp' => ?_
  cases hl.symm.trans hl'
  cases hpb.symm.trans hp'
  exact hnone.record (x := .send _ st) (by rw [plan_setFreq hop]; rfl)

theorem follows_sendRstDone {s : State} (h : s.Consistent) (hf : s.TraceFollowsPlan)
    (hp : s.block.phase = .sendRst) : Follows s.sendRstDone := by
  have hb := h.block
  simp only [Block.Consistent, hp] at hb
  obtain ⟨-, -, -, l, p, hl, hpb, -, hop, htx⟩ := hb
  have hone : s.Issued l p 1 := by simpa [State.TraceFollowsPlan, hp, hl, hpb] using hf
  have hplan := plan_setFreq hop p
  rw [plannedSends_setFreq hop] at htx
  refine follows_onSendDone hf htx fun st => follows_next ?_
  have hboth := State.Issued.record (s := s.popTx) hone (x := .send _ st) (by rw [hplan]; rfl)
  exact traceFollowsPlan_respondOk hl hpb (by rw [hplan]; exact hboth)

theorem follows_recvByteFails {s : State} {l : Latch} {p : List Byte} {k : Nat}
    (hf : s.TraceFollowsPlan) (hon : s.OnPlan l p k) (hx : (plan l p)[k]? = some .recv) :
    Follows s.recvByteFails := by
  rcases receive_one_cases s.env.rx with ⟨-, ho⟩ | ⟨b, rest, -, ho⟩ | ⟨e, rest, -, ho⟩
  · simpa only [State.recvByteFails, ho] using follows_next hf
  · simpa only [State.recvByteFails, ho] using follows_next hf
  · have hon' : (s.setRx rest).OnPlan l p k := hon.congr rfl rfl rfl
    rw [recvByteFails_err ho]
    exact follows_next (hon'.raise hx rfl)

theorem follows_payloadStep {s : State} (h : s.Consistent) (hf : s.TraceFollowsPlan)
    (hp : s.block.phase = .waitPayload) : Follows s.payloadStep := by
  obtain ⟨l, p, c, hr, hc, -, hd, -⟩ := h.block.of_waitPayload hp
  have hon := hr.onPlan hf hp rfl
  have hlast := (plan_data hd p).2
  cases hrx : receive c.toNat s.env.rx with
  | pending => simpa only [State.payloadStep, hc, hrx] using follows_next hf
  | err e rest =>
    have hon' : (s.setRx rest).OnPlan l p _ := hon.congr rfl rfl rfl
    rw [payloadStep_err hc hrx]
    exact follows_next (hon'.raise hlast rfl)
  | ok bs rest =>
    have hall := hon.issued.record (x := .recv c.toNat (.ok bs)) hlast
    have hlen : (plan l p).length - 1 + 1 = (plan l p).length := by
      have hpos := plan_length_of_hasData p hd
      omega
    rw [hlen] at hall
    rw [payloadStep_ok hc hrx]
    exact follows_next (traceFollowsPlan_respondOk hr.latch hr.pbuf hall)

/-- The delay makes no transaction until its expiry offers the second send (R87, R106). -/
theorem follows_delayStep {s : State} (h : s.Consistent) (hf : s.TraceFollowsPlan)
    (hp : s.block.phase = .delaying) : Follows s.delayStep := by
  have hb := h.block
  simp only [Block.Consistent, hp] at hb
  obtain ⟨-, -, l, p, x, hl, hpb, -, -, -, ht, -⟩ := hb
  have hon : s.OnPlan l p 2 := (traceFollowsPlan_iff_onPlan hl hpb hp rfl).1 hf
  simp only [State.delayStep, ht]
  split
  · exact follows_next (hon.follows rfl rfl rfl hp rfl)
  · split
    · exact follows_next hf
    · simp only [State.timerExpiry, hl]
      exact follows_next (hon.follows hl.symm rfl rfl rfl rfl)
    · exact follows_next (hf.congr rfl rfl)

theorem follows_responseStep {s : State} (h : s.Consistent) (hf : s.TraceFollowsPlan)
    (hp : s.block.phase = .done ∨ s.block.phase = .failed) : Follows s.responseStep := by
  obtain ⟨r, l, data, hr, hl, hd⟩ := h.block.response hp
  unfold State.responseStep
  split
  · simp only [hr, hl, hd]
    exact follows_next (traceFollowsPlan_of_reset rfl)
  · exact follows_next hf

/-- From a consistent state on its plan the agent of every phase keeps to the plan. -/
theorem follows_agentStep {s : State} (h : s.Consistent) (hf : s.TraceFollowsPlan) :
    Follows s.agentStep := by
  unfold State.agentStep
  split
  case h_1 => exact follows_next hf
  case h_2 hp => exact follows_sendADone h hf hp
  case h_3 hp =>
    obtain ⟨l, p, hr, -, hst, -⟩ := h.block.of_waitStatus hp
    exact follows_recvByteFails hf (hr.onPlan hf hp rfl) (plan_status hst p)
  case h_4 hp => exact follows_delayStep h hf hp
  case h_5 hp => exact follows_sendBDone h hf hp
  case h_6 hp =>
    obtain ⟨l, p, hr, -, hd, -⟩ := h.block.of_waitCount hp
    exact follows_recvByteFails hf (hr.onPlan hf hp rfl) (plan_data hd p).1
  case h_7 hp => exact follows_payloadStep h hf hp
  case h_8 hp => exact follows_responseStep h hf (.inl hp)
  case h_9 hp => exact follows_responseStep h hf (.inr hp)
  case h_10 hp => exact follows_sendFDone h hf hp
  case h_11 hp => exact follows_sendRstDone h hf hp

/-! ## Replies and requests -/

theorem follows_afterStatus {t : State} {l : Latch} {p : List Byte} (hon : t.OnPlan l p 2)
    (hst : l.hasStatus) : Follows t.afterStatus := by
  by_cases hw : l.op = 0x00#8 ∨ l.op = 0x02#8
  · rw [afterStatus_write hon.latch hw]
    have hall : t.Issued l p (plan l p).length := by rw [plan_length_write hw]; exact hon.issued
    exact follows_next (traceFollowsPlan_respondOk hon.latch hon.pbuf hall)
  · have h3 : l.op = 0x03#8 := by simpa [Latch.hasStatus, not_or.1 hw] using hst
    rw [afterStatus_readReg hon.latch h3]
    split
    · next h0 =>
      have hplace : Phase.madeOf (plan l p).length .waitCount = some 2 := by
        simp [Phase.madeOf, plan_length_readReg h3 h0]
      exact follows_next (hon.follows rfl rfl rfl rfl hplace)
    · exact follows_next (hon.follows rfl rfl rfl rfl rfl)

theorem follows_statusStep {s : State} (h : s.Consistent) (hf : s.TraceFollowsPlan)
    (hp : s.block.phase = .waitStatus) (b : Byte) : Follows (s.statusStep b) := by
  obtain ⟨l, p, hr, -, hst, -⟩ := h.block.of_waitStatus hp
  have hon := hr.onPlan hf hp rfl
  have hnext := plan_status hst p
  rcases reply_class b with rfl | ⟨k, rfl⟩ | hb
  · rw [statusStep_zero]
    exact follows_next (hon.raise hnext failure_recv_zero)
  · rw [statusStep_err]
    exact follows_next (hon.raise hnext (failure_recv_errByte k))
  · rw [statusStep_accepted hb]
    exact follows_afterStatus (hon.record (x := .recv 1 (.ok [b])) hnext hb) hst

theorem follows_countStep {s : State} (h : s.Consistent) (hf : s.TraceFollowsPlan)
    (hp : s.block.phase = .waitCount) (b : Byte) : Follows (s.countStep b) := by
  obtain ⟨l, p, hr, -, hd, -⟩ := h.block.of_waitCount hp
  have hon := hr.onPlan hf hp rfl
  have hnext := (plan_data hd p).1
  rcases reply_class b with rfl | ⟨k, rfl⟩ | hb
  · rw [countStep_zero]
    exact follows_next (hon.raise hnext failure_recv_zero)
  · rw [countStep_err]
    exact follows_next (hon.raise hnext (failure_recv_errByte k))
  · have hcount := hon.record (x := .recv 1 (.ok [b])) hnext hb
    have hplace : Phase.madeOf (plan l p).length .waitPayload = some ((plan l p).length - 2 + 1) := by
      have hlen := plan_length_of_hasData p hd
      rw [Phase.madeOf, show (plan l p).length - 1 = (plan l p).length - 2 + 1 by omega]
    rw [countStep_accepted hb]
    exact follows_next (hcount.follows rfl rfl rfl rfl hplace)

theorem follows_replyStep {s : State} (h : s.Consistent) (hf : s.TraceFollowsPlan) (b : Byte) :
    Follows (s.replyStep b) := by
  by_cases h1 : s.block.phase = .waitStatus
  · rw [replyStep_waitStatus h1]; exact follows_statusStep h hf h1 b
  by_cases h2 : s.block.phase = .waitCount
  · rw [replyStep_waitCount h2]; exact follows_countStep h hf h2 b
  · rw [replyStep_other h1 h2]; exact follows_next (hf.congr rfl rfl)

/-- A request taken in IDLE begins a new trace: refused, or with its first send outstanding (R79). -/
theorem follows_request (v : Desc) {s : State} (hp : s.block.phase = .idle) :
    Follows (exec (decodeDesc v) s) := by
  rcases exec_request_cases v s hp with ⟨-, ho⟩ | ⟨-, m, -, ho⟩ | ⟨-, ho⟩
  · rw [ho]
    exact follows_next fun _ _ _ _ => .inl ⟨rfl, rfl⟩
  · rw [ho]
    split
    · exact follows_next fun _ _ _ _ => rfl
    · exact follows_next fun _ _ _ _ => rfl
  · rw [ho]
    rintro _ ⟨⟩

/-- Whatever instruction runs, the trace keeps to the plan. -/
theorem follows_exec {i : Instr} {s : State} (h : s.Consistent) (hf : s.TraceFollowsPlan) :
    Follows (exec i s) := by
  cases hi : i.format with
  | request =>
    obtain ⟨d, hd, hbusy⟩ := request_row hi
    by_cases hp : s.block.phase = .idle
    · exact hd ▸ follows_request (packDesc i.opCode d) hp
    · rw [hbusy s hp]; exact follows_next (hf.congr rfl rfl)
  | wire f =>
    rcases wire_row hi s with ⟨bs, he⟩ | ⟨r, he⟩
    · rw [he]; exact follows_next (hf.congr rfl rfl)
    · rw [he]; rintro _ ⟨⟩
  | reply =>
    obtain ⟨b, hb⟩ := reply_row hi
    rw [hb s]; exact follows_replyStep h hf b

/-! ## Steps -/

/-- Taking an instruction from its channel is not observed. -/
theorem fetch_instr_log {s t : State} {i : Instr} (h : s.fetch = .instr i t) : t.log = s.log := by
  unfold State.fetch State.fetchCall State.fetchRequest State.fetchReply at h
  repeat' split at h
  all_goals cases h <;> rfl

theorem follows_work {s : State} (h : s.Consistent) (hf : s.TraceFollowsPlan) : Follows s.work := by
  unfold State.work
  split
  · next i u hi =>
    obtain ⟨hb, hs⟩ := fetch_instr_frame hi
    exact follows_exec (h.congr hb hs) (hf.congr hb (congrArg Log.trace (fetch_instr_log hi)))
  · rintro _ ⟨⟩
  · exact follows_agentStep h hf

/-- Settles O54: a reset leaves no operation, and every other step makes the next planned transaction or
none. -/
theorem transactionsFollowThePlan : Obligations.TransactionsFollowThePlan := by
  intro s t h hf ho
  rcases step_cases s with ⟨rest, hr⟩ | ⟨rs, hw⟩
  · rw [hr] at ho
    cases ho
    exact traceFollowsPlan_of_reset rfl
  · rw [hw] at ho
    exact follows_work (s := { s with env.resets := rs }) (h.congr rfl rfl) (hf.congr rfl rfl) t ho

end Sys2Proof.Machine

/-! PROOFS. The encoding family: descriptors, the tag mapper, sent messages and response descriptors
(30_encoding.md), and what the rows that emit or refuse them do. -/

namespace Sys2Proof

/-! ## Descriptors -/

/-- The fields of a descriptor lie side by side and cover it (R48). -/
@[simp] theorem packDesc_descOp_descFields (v : Desc) : packDesc (descOp v) (descFields v) = v := by
  simp only [packDesc, descOp, descFields]
  iterate 7 rw [BitVec.extractLsb'_append_extractLsb'_eq_extractLsb' (by rfl)]
  exact BitVec.extractLsb'_eq_self

/-- A reserved op code is the fixed high bits of its range and the range's free low bits (R49, R96). -/
theorem reserved_opCode_cases : ∀ op : Byte, 4 < op.toNat → op = 5#8 ∨
    op = 3#7 ++ op.extractLsb' 0 1 ∨ op = 1#5 ++ op.extractLsb' 0 3 ∨
    op = 1#4 ++ op.extractLsb' 0 4 ∨ op = 1#3 ++ op.extractLsb' 0 5 ∨
    op = 1#2 ++ op.extractLsb' 0 6 ∨ op = 1#1 ++ op.extractLsb' 0 7 := by decide

/-- The instruction is the request row of op code `op`, encoded as the descriptor with the fields `d`. -/
structure Instr.IsRequest (i : Instr) (op : Byte) (d : ReqFields) : Prop where
  format : i.format = .request
  opCode : i.opCode = op
  encode : encode i = descBytes (packDesc op d)

/-- Whichever row the decoder takes, it keeps the op code and the fields (R48, R49). -/
theorem decodeDesc_packDesc_isRequest (op : Byte) (d : ReqFields) :
    (decodeDesc (packDesc op d)).IsRequest op d := by
  rcases opCode_cases op with rfl | rfl | rfl | rfl | rfl | hop
  · rw [decodeDesc_writeRaw (descOp_packDesc _ d), descFields_packDesc]; exact ⟨rfl, rfl, rfl⟩
  · rw [decodeDesc_readRaw (descOp_packDesc _ d), descFields_packDesc]; exact ⟨rfl, rfl, rfl⟩
  · rw [decodeDesc_writeReg (descOp_packDesc _ d), descFields_packDesc]; exact ⟨rfl, rfl, rfl⟩
  · rw [decodeDesc_readReg (descOp_packDesc _ d), descFields_packDesc]; exact ⟨rfl, rfl, rfl⟩
  · rw [decodeDesc_setFreq (descOp_packDesc _ d), descFields_packDesc]; exact ⟨rfl, rfl, rfl⟩
  rcases reserved_opCode_cases op hop with rfl | h | h | h | h | h | h
  · have h05 : decodeDesc (packDesc 5#8 d) = .reserved05 d := by simp [decodeDesc]
    rw [h05]; exact ⟨rfl, rfl, rfl⟩
  · rw [h, Machine.decodeDesc_reserved06]; exact ⟨rfl, rfl, rfl⟩
  · rw [h, Machine.decodeDesc_reserved08]; exact ⟨rfl, rfl, rfl⟩
  · rw [h, Machine.decodeDesc_reserved10]; exact ⟨rfl, rfl, rfl⟩
  · rw [h, Machine.decodeDesc_reserved20]; exact ⟨rfl, rfl, rfl⟩
  · rw [h, Machine.decodeDesc_reserved40]; exact ⟨rfl, rfl, rfl⟩
  · rw [h, Machine.decodeDesc_reserved80]; exact ⟨rfl, rfl, rfl⟩

/-- Settles O3: the decoder keeps the op code and the fields, and these are all the bits there are. -/
theorem everyDescriptorIsOneRequest : Obligations.EveryDescriptorIsOneRequest := by
  intro v
  have hv := packDesc_descOp_descFields v
  obtain ⟨hformat, hop, henc⟩ := decodeDesc_packDesc_isRequest (descOp v) (descFields v)
  rw [hv] at hformat hop henc
  exact ⟨hformat, by rw [hop, hv], henc⟩

/-- Settles O2: closed words, evaluated. -/
theorem wordsOfTheSpecDecode : Obligations.WordsOfTheSpecDecode := by
  unfold Obligations.WordsOfTheSpecDecode
  decide

/-! ## The tag mapper -/

theorem tagOf_tagByte (t : Tag) : tagOf (tagByte t) = some t := by
  cases t <;> rfl

theorem tagByte_of_tagOf {b : Byte} {t : Tag} (h : tagOf b = some t) : tagByte t = b := by
  unfold tagOf at h
  split_ifs at h with h1 h2 h3 h4 h5 h6 h7 <;> cases h
  · exact h1.symm
  · exact h2.symm
  · exact h3.symm
  · exact h4.symm
  · exact h5.symm
  · exact h6.symm
  · exact h7.symm

/-- Settles O5: `tagOf` undoes the mapper, so the mapper is injective. -/
theorem tagOfIsTheInverseOfTheMapper : Obligations.TagOfIsTheInverseOfTheMapper := by
  refine ⟨by decide, fun t u h => ?_, fun b t => ⟨tagByte_of_tagOf, fun h => h ▸ tagOf_tagByte t⟩⟩
  have hsome : some t = some u := by rw [← tagOf_tagByte t, h, tagOf_tagByte]
  exact Option.some.inj hsome

/-! ## Sent messages -/

theorem decodeWire_nil (f : WireForm) : decodeWire f [] = .error .truncated := by
  cases f <;> rfl

/-- The reader takes the wire item the message opens with and goes on behind it (R59). -/
theorem splitMessage_of_decodeWire {f : WireForm} {m rest : List Byte} {i : Instr} (fuel : Nat)
    (h : decodeWire f m = .ok (i, rest)) :
    splitMessage f (fuel + 1) m = (splitMessage f fuel rest).map (i :: ·) := by
  cases m with
  | nil => rw [decodeWire_nil] at h; cases h
  | cons b m => simp only [splitMessage, h]

/-- A well-formed wire row opens the message of its bytes and what follows them. -/
theorem splitMessage_encode_append {i : Instr} {f : WireForm} (hi : i.format = .wire f)
    (hw : i.WellFormed) (fuel : Nat) (rest : List Byte) :
    splitMessage f (fuel + 1) (encode i ++ rest) = (splitMessage f fuel rest).map (i :: ·) := by
  have h := decodeOfEncodeIsTheInstruction i rest hw
  rw [hi] at h
  exact splitMessage_of_decodeWire fuel h

/-- A message of one segment is read as that segment. -/
theorem splitMessage_encode {i : Instr} {f : WireForm} (hi : i.format = .wire f)
    (hw : i.WellFormed) : splitMessage f 1 (encode i) = some [i] := by
  simpa [splitMessage] using splitMessage_encode_append hi hw 0 []

/-- The follow segment is the same in both readings of a segment (R54). -/
theorem splitMessage_buildReadFollow (n : Byte) :
    splitMessage .regSegment 1 (buildReadFollow n) = some [.segReadFollow n] := by
  have h : decodeWire .regSegment (buildReadFollow n) = .ok (.segReadFollow n, []) := rfl
  rw [splitMessage_of_decodeWire 0 h]
  rfl

/-- Settles O9: each message is the encoding of its segment, the combined packet of its two. -/
theorem sentMessagesSplitIntoSegments : Obligations.SentMessagesSplitIntoSegments := by
  intro dev reg n payload
  refine ⟨fun h => ?_, fun h => ?_, ?_, ?_, ?_, ?_⟩
  · exact splitMessage_encode (i := .segRawWrite dev payload) rfl (decide_eq_true h)
  · exact splitMessage_encode (i := .segRegWrite dev reg payload) rfl (decide_eq_true h)
  · exact splitMessage_encode (i := .segAddrRead dev n) rfl rfl
  · exact splitMessage_encode (i := .segWriteRestart dev reg) rfl rfl
  · exact splitMessage_encode (i := .segReadFollow n) rfl rfl
  · have hfirst := splitMessage_encode_append (i := .segWriteRestart dev reg) rfl rfl 1
      (buildReadFollow n)
    rw [splitMessage_buildReadFollow] at hfirst
    exact hfirst

end Sys2Proof

namespace Sys2Proof.Machine

/-! ## The messages of a register access -/

/-- A register access sends one of the five builders' messages or the combined packet (R84 to R87). -/
theorem mem_plannedSends {l : Latch} {p m : List Byte} (hop : l.op ≠ 0x04#8)
    (hm : m ∈ plannedSends l p) :
    m = buildWrite l.dev p ∨ m = buildReadRequest l.dev l.n ∨ m = buildWriteRegister l.dev l.reg p ∨
    m = buildCombined l.dev l.reg l.n ∨ m = buildWriteRestart l.dev l.reg ∨ m = buildReadFollow l.n := by
  unfold plannedSends at hm
  split_ifs at hm
  · exact .inl (List.mem_singleton.1 hm)
  · exact .inr (.inl (List.mem_singleton.1 hm))
  · exact .inr (.inr (.inl (List.mem_singleton.1 hm)))
  · exact .inr (.inr (.inr (.inl (List.mem_singleton.1 hm))))
  · exact .inr (.inr (.inr (.inr (List.mem_pair.1 hm))))
  · cases hm

/-- Settles O10: the header of each message is written out. -/
theorem noMessageCarriesReadRestart : Obligations.NoMessageCarriesReadRestart := by
  intro l p m hop hm
  rcases mem_plannedSends hop hm with rfl | rfl | rfl | rfl | rfl | rfl
  · exact ⟨rfl, .inl ⟨rfl, .inl rfl⟩⟩
  · exact ⟨rfl, .inl ⟨rfl, .inr (.inl rfl)⟩⟩
  · exact ⟨rfl, .inl ⟨rfl, .inl rfl⟩⟩
  · exact ⟨rfl, .inl ⟨rfl, .inr (.inr ⟨rfl, .inr ⟨rfl, rfl, rfl⟩⟩)⟩⟩
  · exact ⟨rfl, .inl ⟨rfl, .inr (.inr ⟨rfl, .inl rfl⟩)⟩⟩
  · exact ⟨rfl, .inr ⟨rfl, rfl⟩⟩

/-! ## Requests in IDLE -/

/-- A descriptor with its reserved bits cleared (R50). -/
def clearReserved (v : Desc) : Desc := packDesc (descOp v) { descFields v with rsvd := 0#16 }

/-- Clearing the reserved bits leaves what the other bits determine. -/
theorem clearReserved_congr {v w : Desc} (h : v.extractLsb' 0 112 = w.extractLsb' 0 112) :
    clearReserved v = clearReserved w := by
  have field : ∀ a n, a + n ≤ 112 → v.extractLsb' a n = w.extractLsb' a n := by
    intro a n han
    have hx := congrArg (BitVec.extractLsb' a n) h
    simpa [BitVec.extractLsb'_extractLsb'_of_le han] using hx
  simp [clearReserved, descOp, descFields, field]

/-- The reserved bits are not latched, and no request row reads them (R50). -/
theorem exec_clearReserved (v : Desc) {s : State} (hs : s.block.phase = .idle) :
    exec (decodeDesc (clearReserved v)) s = exec (decodeDesc v) s := by
  have hop : descOp (clearReserved v) = descOp v := descOp_packDesc _ _
  have hd : descFields (clearReserved v) = { descFields v with rsvd := 0#16 } := descFields_packDesc _ _
  rcases opCode_cases (descOp v) with h | h | h | h | h | h
  · rw [decodeDesc_writeRaw h, decodeDesc_writeRaw (hop.trans h), hd]
    exact (if_pos hs).trans (if_pos hs).symm
  · rw [decodeDesc_readRaw h, decodeDesc_readRaw (hop.trans h), hd]
    exact (if_pos hs).trans (if_pos hs).symm
  · rw [decodeDesc_writeReg h, decodeDesc_writeReg (hop.trans h), hd]
    exact (if_pos hs).trans (if_pos hs).symm
  · rw [decodeDesc_readReg h, decodeDesc_readReg (hop.trans h), hd]
    exact (if_pos hs).trans (if_pos hs).symm
  · rw [decodeDesc_setFreq h, decodeDesc_setFreq (hop.trans h), hd]
    exact (if_pos hs).trans (if_pos hs).symm
  · rw [exec_reserved h, exec_reserved (hop.symm ▸ h), hop, hd, rejectReserved_idle hs,
      rejectReserved_idle hs]
    rfl

/-- Settles O26: both descriptors do what the one with cleared reserved bits does. -/
theorem reservedDescriptorBitsAreIgnored : Obligations.ReservedDescriptorBitsAreIgnored := by
  intro v w s hs h
  rw [← exec_clearReserved v hs, clearReserved_congr h, exec_clearReserved w hs]

theorem freqByte_eq_mod (hz : Word) : freqByte hz = BitVec.ofNat 8 (hz.toNat / 10000 % 256) :=
  BitVec.eq_of_toNat_eq (by simp [freqByte])

/-- Settles O12: truncation is the division, masking the eight bits of a byte. -/
theorem frequencyByteTruncatesAndMasks : Obligations.FrequencyByteTruncatesAndMasks := by
  intro hz
  exact ⟨BitVec.toNat_ofNat _ _, BitVec.eq_of_toNat_eq (by simp [freqByte])⟩

/-- Settles O18: the zero delay selects the combined packet. -/
theorem readRegWithoutDelaySendsOnePacket : Obligations.ReadRegWithoutDelaySendsOnePacket :=
  fun _ _ hs hd => (if_pos hs).trans (if_pos hd)

/-- Settles O20: the first send of SET_FREQ carries the frequency byte. -/
theorem setFreqSendsTheFrequencyPacket : Obligations.SetFreqSendsTheFrequencyPacket := by
  intro d s hs
  rw [← freqByte_eq_mod]
  exact if_pos hs

/-- A write whose length check fails is latched and refused with PROTOCOL (R67, row 1 of R91). -/
theorem exec_writeRaw_protocol {d : ReqFields} {s : State} (hs : s.block.phase = .idle)
    (hlen : lenCheckRaw d.plen = .protocol) :
    exec (.writeRaw d) s = .next ((s.latchRequest 0x00#8 d).raise .protocol) := by
  simp [exec, execWriteRaw, hs, hlen]

theorem exec_writeReg_protocol {d : ReqFields} {s : State} (hs : s.block.phase = .idle)
    (hlen : lenCheckReg d.plen = .protocol) :
    exec (.writeReg d) s = .next ((s.latchRequest 0x02#8 d).raise .protocol) := by
  simp [exec, execWriteReg, hs, hlen]

/-- Settles O21: above the limit the length check answers PROTOCOL. -/
theorem overlongWritesFailWithProtocol : Obligations.OverlongWritesFailWithProtocol :=
  fun _ _ hs => ⟨fun h => exec_writeRaw_protocol hs (lenCheckRaw_protocol h),
    fun h => exec_writeReg_protocol hs (lenCheckReg_protocol h)⟩

/-! ## Codec calls -/

/-- Settles O27: each row emits the bytes of the mapper's table. -/
theorem tagsEmitTheirBytes : Obligations.TagsEmitTheirBytes :=
  fun _ _ => ⟨rfl, rfl, rfl, rfl, rfl, rfl, rfl⟩

/-- Settles O29: the row has one outcome. -/
theorem readRestartIsNeverEmitted : Obligations.ReadRestartIsNeverEmitted :=
  fun _ => rfl

/-- Settles O30: beyond the length byte's range the row has no other outcome. -/
theorem overlongSegmentsAreRefused : Obligations.OverlongSegmentsAreRefused :=
  fun _ _ _ _ => ⟨fun h => if_neg (Nat.not_le.2 h), fun h => if_neg (Nat.not_le.2 h)⟩

/-- The state after the packet-kind byte, SetAddress and SetLength of a segment (R54). -/
def State.emitHeader (dev len : Byte) (s : State) : State :=
  ((s.emit [idByte]).emit [tagByte .setAddress, dev]).emit [tagByte .setLength, len]

/-- An addressed segment is its header, its command and its body, one after the other (R54). -/
theorem emit_addressedSegment (dev len : Byte) (cmd : Tag) (body : List Byte) (s : State) :
    s.emit (addressedSegment dev len cmd body) =
      ((s.emitHeader dev len).emit [tagByte cmd]).emit body := by
  simp [State.emit, State.emitHeader, addressedSegment]

theorem emit_buildReadFollow (n : Byte) (s : State) :
    s.emit (buildReadFollow n) =
      ((s.emit [idByte]).emit [tagByte .setLength, n]).emit [tagByte .read] := by
  simp [State.emit, buildReadFollow]

theorem emit_buildReadRequest (dev n : Byte) (s : State) :
    s.emit (buildReadRequest dev n) = (s.emitHeader dev n).emit [tagByte .read] := by
  rw [buildReadRequest, emit_addressedSegment]
  simp [State.emit]

/-- Settles O31: the tags of a segment emit its header and command, and only the body is left. -/
theorem segmentsAreTheirTagsInOrder : Obligations.SegmentsAreTheirTagsInOrder := by
  intro dev reg n payload s
  refine ⟨s.emit [idByte], fun len => s.emitHeader dev len, rfl, fun len => ⟨_, rfl, rfl⟩,
    fun h => ⟨_, rfl, ?_⟩, fun h => ⟨_, rfl, ?_⟩, ?_, ⟨_, rfl, ?_⟩, ⟨_, rfl, ?_⟩⟩
  · exact (if_pos h).trans (congrArg _ (emit_addressedSegment dev _ .write payload s))
  · exact (if_pos h).trans (congrArg _ (emit_addressedSegment dev _ .write (reg :: payload) s))
  · exact congrArg _ (emit_buildReadRequest dev n s).symm
  · exact congrArg _ (emit_addressedSegment dev 1#8 .writeRestart [reg] s)
  · exact congrArg _ (emit_buildReadFollow n s).symm

/-! ## Error codes -/

/-- An error code ends the operation with DEVICE, as the status byte and as the count byte (R82, R83). -/
theorem replyStep_err {s : State} (hp : s.block.phase = .waitStatus ∨ s.block.phase = .waitCount)
    (k : ErrorKind) : s.replyStep (errByte k) = .next (s.afterBadReply (errByte k) (.device k)) := by
  rcases hp with hp | hp
  · rw [replyStep_waitStatus hp, statusStep_err]
    rfl
  · rw [replyStep_waitCount hp, countStep_err]
    rfl

/-- Settles O32: each row is the reply step of its error code's byte. -/
theorem errorCodesFailWithDevice : Obligations.ErrorCodesFailWithDevice :=
  fun _ hp => ⟨replyStep_err hp .none, replyStep_err hp .unescape, replyStep_err hp .length,
    replyStep_err hp .read, replyStep_err hp .writeData, replyStep_err hp .sendData⟩

/-! ## The response descriptor -/

/-- The fields of a response descriptor can be read back (R64). -/
theorem responseWord_fields (err len : Byte) (code kind : BitVec 3) :
    let w : Word := 0#8 ++ err ++ len ++ 0#2 ++ code ++ kind
    w.extractLsb' 0 3 = kind ∧ w.extractLsb' 3 3 = code ∧ w.extractLsb' 6 2 = 0#2 ∧
    w.extractLsb' 8 8 = len ∧ w.extractLsb' 16 8 = err ∧ w.extractLsb' 24 8 = 0#8 := by
  refine ⟨?_, ?_, ?_, ?_, ?_, ?_⟩ <;>
  · ext i hi
    simp only [BitVec.getElem_extractLsb', BitVec.getLsbD_append]
    grind

/-- Settles O50: every result is packed into the same fields. -/
theorem responseDescriptorFields : Obligations.ResponseDescriptorFields := by
  intro r
  have terr : ∀ e, rspTerrOf r = some e ↔ r = .err (.transport e) := fun e => rspTerrOf_eq_some
  rcases r with len | e | _ | k | _
  · obtain ⟨hkind, hcode, hzero, hlen, herr, htop⟩ := responseWord_fields 0#8 len 0#3 0#3
    exact ⟨hkind, hcode, hzero, hlen, herr, htop, terr⟩
  · obtain ⟨hkind, hcode, hzero, hlen, herr, htop⟩ := responseWord_fields 0#8 0#8 0#3 1#3
    exact ⟨hkind, hcode, hzero, hlen, herr, htop, terr⟩
  · obtain ⟨hkind, hcode, hzero, hlen, herr, htop⟩ := responseWord_fields 0#8 0#8 0#3 2#3
    exact ⟨hkind, hcode, hzero, hlen, herr, htop, terr⟩
  · obtain ⟨hkind, hcode, hzero, hlen, herr, htop⟩ := responseWord_fields (errByte k) 0#8 (errCode k) 3#3
    exact ⟨hkind, hcode.trans (by cases k <;> rfl), hzero, hlen, herr.trans (by cases k <;> rfl), htop,
      terr⟩
  · obtain ⟨hkind, hcode, hzero, hlen, herr, htop⟩ := responseWord_fields 0#8 0#8 0#3 4#3
    exact ⟨hkind, hcode, hzero, hlen, herr, htop, terr⟩

end Sys2Proof.Machine

/-! PROOFS. The codec family: the serializers and the register-write parser, the verdicts a step consumes,
and the packets the requests offer (40_codec.md). -/

namespace Sys2Proof

/-! ## Serializers -/

/-- Settles O6: the header is the segment's own, and under the limits of R67 its length byte is exact. -/
theorem buildersGiveTheirBytes : Obligations.BuildersGiveTheirBytes :=
  fun _ _ _ _ => ⟨fun h => ⟨_, lengthByte_toNat h, rfl⟩,
    fun h => ⟨_, lengthByte_toNat (Nat.succ_le_succ h), rfl⟩, rfl, rfl, rfl⟩

/-! ## The register-write parser -/

theorem parseWriteRegister_of_length_lt {m : List Byte} (h : m.length < 7) :
    parseWriteRegister m = none := by
  unfold parseWriteRegister
  split
  · simp only [List.length_cons] at h
    omega
  · rfl

/-- Of seven bytes and more the parser takes the third, the seventh and the rest, once the four fixed
bytes and the length byte hold (R77). -/
theorem parseWriteRegister_cons {m0 m1 m2 m3 m4 m5 m6 dev reg : Byte} {rest payload : List Byte} :
    parseWriteRegister (m0 :: m1 :: m2 :: m3 :: m4 :: m5 :: m6 :: rest) = some (dev, reg, payload) ↔
      (m0 = 0x32#8 ∧ m1 = 0x41#8 ∧ m3 = 0x4C#8 ∧ m5 = 0x57#8 ∧ 1 ≤ m4.toNat ∧
        m4.toNat = rest.length + 1) ∧ m2 = dev ∧ m6 = reg ∧ rest = payload := by
  simp [parseWriteRegister]

theorem exists_cons_of_seven_le_length {m : List Byte} (h : 7 ≤ m.length) :
    ∃ m0 m1 m2 m3 m4 m5 m6 rest, m = m0 :: m1 :: m2 :: m3 :: m4 :: m5 :: m6 :: rest := by
  match m with
  | m0 :: m1 :: m2 :: m3 :: m4 :: m5 :: m6 :: rest => exact ⟨_, _, _, _, _, _, _, _, rfl⟩
  | [] | [_] | [_, _] | [_, _, _] | [_, _, _, _] | [_, _, _, _, _] | [_, _, _, _, _, _] => simp at h

/-- Settles O8: a message of fewer than seven bytes is none, and of a longer one the parser reads the
bytes the rule indexes. -/
theorem parserAcceptsExactlyRegisterWrites : Obligations.ParserAcceptsExactlyRegisterWrites := by
  intro m dev reg payload
  rcases Nat.lt_or_ge m.length 7 with hshort | hlong
  · rw [parseWriteRegister_of_length_lt hshort]
    exact iff_of_false nofun fun h => Nat.not_le.2 hshort h.1
  · obtain ⟨m0, m1, m2, m3, m4, m5, m6, rest, rfl⟩ := exists_cons_of_seven_le_length hlong
    rw [parseWriteRegister_cons]
    constructor
    · rintro ⟨⟨rfl, rfl, rfl, rfl, hpos, hlen⟩, rfl, rfl, rfl⟩
      exact ⟨hlong, rfl, rfl, rfl, rfl, ⟨m4, rfl, hpos, hlen⟩, rfl, rfl, rfl⟩
    · rintro ⟨-, h0, h1, h3, h5, ⟨len, h4, hpos, hlen⟩, h2, h6, hrest⟩
      cases h0; cases h1; cases h3; cases h5; cases h4; cases h2; cases h6
      exact ⟨⟨rfl, rfl, rfl, rfl, hpos, hlen⟩, rfl, rfl, hrest⟩

/-- Settles O7: the built message meets the parser's rule, its length byte exact. -/
theorem registerWriteParsesBack : Obligations.RegisterWriteParsesBack := by
  intro dev reg payload h
  have hlen := lengthByte_toNat (Nat.succ_le_succ h)
  exact parseWriteRegister_cons.2 ⟨⟨rfl, rfl, rfl, rfl, hlen ▸ Nat.succ_pos _, hlen⟩, rfl, rfl, rfl⟩

end Sys2Proof

namespace Sys2Proof.Machine

/-! ## The length check -/

theorem lenCheckRaw_eq_protocol {n : Half} : lenCheckRaw n = .protocol ↔ 255 < n.toNat :=
  ⟨fun h => Nat.lt_of_not_le fun hle => (nomatch (lenCheckRaw_pass hle).symm.trans h),
    lenCheckRaw_protocol⟩

theorem lenCheckRaw_eq_pass {n : Half} : lenCheckRaw n = .pass ↔ n.toNat ≤ 255 :=
  ⟨fun h => Nat.le_of_not_lt fun hlt => (nomatch (lenCheckRaw_protocol hlt).symm.trans h),
    lenCheckRaw_pass⟩

theorem lenCheckReg_eq_protocol {n : Half} : lenCheckReg n = .protocol ↔ 254 < n.toNat :=
  ⟨fun h => Nat.lt_of_not_le fun hle => (nomatch (lenCheckReg_pass hle).symm.trans h),
    lenCheckReg_protocol⟩

theorem lenCheckReg_eq_pass {n : Half} : lenCheckReg n = .pass ↔ n.toNat ≤ 254 :=
  ⟨fun h => Nat.le_of_not_lt fun hlt => (nomatch (lenCheckReg_protocol hlt).symm.trans h),
    lenCheckReg_pass⟩

/-- Settles O13: the limits, and a request step that latches and raises PROTOCOL. -/
theorem lengthCheckLimits : Obligations.LengthCheckLimits :=
  ⟨fun _ => ⟨lenCheckRaw_eq_protocol, lenCheckRaw_eq_pass, lenCheckReg_eq_protocol, lenCheckReg_eq_pass⟩,
    fun _ _ hs => ⟨fun h => ⟨_, exec_writeRaw_protocol hs h, rfl, rfl, rfl, rfl⟩,
      fun h => ⟨_, exec_writeReg_protocol hs h, rfl, rfl, rfl, rfl⟩⟩⟩

/-! ## Reply parsers -/

theorem errByte_inj {j k : ErrorKind} : errByte j = errByte k ↔ j = k :=
  ⟨fun h => Option.some.inj (by rw [← errorKindOf_errByte j, h, errorKindOf_errByte]), congrArg errByte⟩

theorem isAccepted_errByte (k : ErrorKind) : isAccepted (errByte k) = false := by
  simp [isAccepted, errorKindOf_errByte]

theorem decodeStatus_eq_timeout {b : Byte} : decodeStatus b = .timeout ↔ b = 0#8 := by
  rcases reply_class b with rfl | ⟨j, rfl⟩ | hb
  · exact iff_of_true rfl rfl
  · simp [decodeStatus_errByte, errByte_ne_zero]
  · simp [decodeStatus_accepted hb, (isAccepted_iff.1 hb).1]

theorem decodeStatus_eq_err {b : Byte} {k : ErrorKind} : decodeStatus b = .err k ↔ b = errByte k := by
  rcases reply_class b with rfl | ⟨j, rfl⟩ | hb
  · exact iff_of_false nofun (errByte_ne_zero k).symm
  · simp [decodeStatus_errByte, errByte_inj]
  · have hne : b ≠ errByte k := by rintro rfl; simp [isAccepted_errByte] at hb
    simp [decodeStatus_accepted hb, hne]

/-- The count parser answers as the status parser does, an accepted byte being the count (R74, R75). -/
theorem decodeCount_eq (b : Byte) : decodeCount b = match decodeStatus b with
    | .timeout => .timeout
    | .err k   => .err k
    | .ok      => .count b := by
  rcases reply_class b with rfl | ⟨k, rfl⟩ | hb
  · rfl
  · rw [decodeCount_errByte, decodeStatus_errByte]
  · rw [decodeCount_accepted hb, decodeStatus_accepted hb]

theorem decodeCount_eq_timeout {b : Byte} : decodeCount b = .timeout ↔ decodeStatus b = .timeout := by
  rw [decodeCount_eq]
  cases decodeStatus b <;> simp

theorem decodeCount_eq_err {b : Byte} {k : ErrorKind} :
    decodeCount b = .err k ↔ decodeStatus b = .err k := by
  rw [decodeCount_eq]
  cases decodeStatus b <;> simp

theorem decodeCount_eq_count {b c : Byte} :
    decodeCount b = .count c ↔ decodeStatus b = .ok ∧ c = b := by
  rw [decodeCount_eq]
  cases decodeStatus b <;> simp [eq_comm]

/-- Settles O14: each verdict is the class of its byte, for the count as for the status. -/
theorem replyParsersOnEveryByte : Obligations.ReplyParsersOnEveryByte :=
  fun _ => ⟨decodeStatus_eq_timeout, decodeStatus_eq_err, decodeStatus_eq_err, decodeStatus_eq_err,
    decodeStatus_eq_err, decodeStatus_eq_err, decodeStatus_eq_err,
    decodeCount_eq_timeout.trans decodeStatus_eq_timeout, fun _ => decodeCount_eq_err,
    fun _ => decodeCount_eq_count⟩

/-! ## The packets of the requests -/

/-- A write's request step reads the whole payload back from PBUF (R22, R79). -/
theorem memRead_latchRequest (op : Byte) {d : ReqFields} {s : State}
    (h : d.plen.toNat ≤ s.env.payload.length) :
    memRead (s.latchRequest op d).block.pbuf 0 d.plen.toNat =
      some (s.env.payload.take d.plen.toNat) := by
  rw [State.latchRequest_block_pbuf, memRead_zero_eq (by simp [h]), List.take_take, Nat.min_self]

theorem exec_writeRaw_pass {d : ReqFields} {s : State} (hs : s.block.phase = .idle)
    (hlen : d.plen.toNat ≤ 255) (hp : d.plen.toNat ≤ s.env.payload.length) :
    exec (.writeRaw d) s = .next ((s.latchRequest 0x00#8 d).startSend .sendA
      (buildWrite d.dev (s.env.payload.take d.plen.toNat))) := by
  simp only [exec, execWriteRaw, hs, lenCheckRaw_pass hlen, memRead_latchRequest _ hp, if_true]

theorem exec_writeReg_pass {d : ReqFields} {s : State} (hs : s.block.phase = .idle)
    (hlen : d.plen.toNat ≤ 254) (hp : d.plen.toNat ≤ s.env.payload.length) :
    exec (.writeReg d) s = .next ((s.latchRequest 0x02#8 d).startSend .sendA
      (buildWriteRegister d.dev d.reg (s.env.payload.take d.plen.toNat))) := by
  simp only [exec, execWriteReg, hs, lenCheckReg_pass hlen, memRead_latchRequest _ hp, if_true]

/-- The length byte of a raw write is the low byte of `plen` (R56, R68). -/
theorem buildWrite_take {n : Half} {p : List Byte} (h : n.toNat ≤ p.length) (dev : Byte) :
    buildWrite dev (p.take n.toNat) =
      [0x32#8, 0x41#8, dev, 0x4C#8, n.setWidth 8, 0x57#8] ++ p.take n.toNat := by
  rw [buildWrite, List.length_take_of_le h, lengthByte, BitVec.ofNat_toNat]
  rfl

/-- The length byte of a register write counts the register byte too (R56, R69). -/
theorem buildWriteRegister_take {n : Half} {p : List Byte} (h : n.toNat ≤ p.length) (dev reg : Byte) :
    buildWriteRegister dev reg (p.take n.toNat) =
      [0x32#8, 0x41#8, dev, 0x4C#8, n.setWidth 8 + 1#8, 0x57#8, reg] ++ p.take n.toNat := by
  rw [buildWriteRegister, List.length_take_of_le h, lengthByte, BitVec.ofNat_add, BitVec.ofNat_toNat]
  rfl

/-- Settles O15: the packet is built from the payload read back. -/
theorem writeRawSendsItsPacket : Obligations.WriteRawSendsItsPacket := by
  intro d s hs hlen hp
  rw [exec_writeRaw_pass hs hlen hp, buildWrite_take hp]
  rfl

/-- Settles O17: the packet is built from the register and the payload read back. -/
theorem writeRegSendsItsPacket : Obligations.WriteRegSendsItsPacket := by
  intro d s hs hlen hp
  rw [exec_writeReg_pass hs hlen hp, buildWriteRegister_take hp]
  rfl

/-- Settles O16: in IDLE the row has one outcome. -/
theorem readRawSendsItsPacket : Obligations.ReadRawSendsItsPacket :=
  fun _ _ hs => if_pos hs

/-- Settles O19: the positive delay selects the write-restart alone. -/
theorem readRegWithDelaySendsWriteRestart : Obligations.ReadRegWithDelaySendsWriteRestart :=
  fun _ _ hs hd => (if_pos hs).trans (if_neg hd)

/-! ## The bytes of the segments -/

/-- Settles O28: each row emits its serializer's bytes, a write's when its payload fits. -/
theorem segmentsEmitTheirBytes : Obligations.SegmentsEmitTheirBytes :=
  fun _ _ _ _ _ => ⟨fun h => if_pos h, fun h => if_pos h, rfl, rfl, rfl⟩

end Sys2Proof.Machine

/-! PROOFS. The register access family: what each step of an operation does, every step a row of the
transition table, and whole operations (41_register_access.md). -/

namespace Sys2Proof.Machine

/-! ## The work of a phase -/

/-- The phases that run no instruction: their agent moves (R91). -/
theorem work_agent {s : State} {ph : Phase} (hc : s.env.calls = []) (hp : s.block.phase = ph)
    (hne : ph ≠ .idle ∧ ph ≠ .waitStatus ∧ ph ≠ .waitCount) : s.work = s.agentStep := by
  apply work_nothing
  obtain ⟨hidle, hstatus, hcount⟩ := hne
  rw [fetch_no_call hc, hp]
  cases ph with
  | idle => exact absurd rfl hidle
  | waitStatus => exact absurd rfl hstatus
  | waitCount => exact absurd rfl hcount
  | _ => rfl

theorem work_sendA {s : State} (hc : s.env.calls = []) (hp : s.block.phase = .sendA) :
    s.work = s.sendADone := by
  rw [work_agent hc hp (by decide)]
  simp only [State.agentStep, hp]

theorem work_sendB {s : State} (hc : s.env.calls = []) (hp : s.block.phase = .sendB) :
    s.work = s.sendBDone := by
  rw [work_agent hc hp (by decide)]
  simp only [State.agentStep, hp]

theorem work_sendF {s : State} (hc : s.env.calls = []) (hp : s.block.phase = .sendF) :
    s.work = s.sendFDone := by
  rw [work_agent hc hp (by decide)]
  simp only [State.agentStep, hp]

theorem work_sendRst {s : State} (hc : s.env.calls = []) (hp : s.block.phase = .sendRst) :
    s.work = s.sendRstDone := by
  rw [work_agent hc hp (by decide)]
  simp only [State.agentStep, hp]

/-- In IDLE the presented request runs, taken from its channel (R15, R79). -/
theorem work_request {s : State} {r : Request} {rest : List Request} (hc : s.env.calls = [])
    (hp : s.block.phase = .idle) (hq : s.env.reqs = r :: rest) :
    s.work = exec (decodeDesc r.desc) { s with env.reqs := rest, env.payload := r.payload } :=
  work_instr (by simp [fetch_no_call hc, hp, State.fetchRequest, hq])

/-- In WAIT_STATUS and WAIT_COUNT the byte that has come runs its reply step (R82, R83). -/
theorem work_reply {s : State} {b : Byte} {rest : List RxItem} (hc : s.env.calls = [])
    (hp : s.block.phase = .waitStatus ∨ s.block.phase = .waitCount) (hrx : s.env.rx = .byte b :: rest) :
    s.work = (s.setRx rest).replyStep b := by
  have hf : s.fetch = .instr (decodeReplyByte b) (s.setRx rest) := by
    rcases hp with hp | hp <;> simp [fetch_no_call hc, hp, State.fetchReply, hrx]
  rw [work_instr hf, exec_decodeReplyByte]

/-- In WAIT_STATUS and WAIT_COUNT without a byte the receive has failed or not come (R36, R81). -/
theorem work_no_reply {s : State} (hc : s.env.calls = [])
    (hp : s.block.phase = .waitStatus ∨ s.block.phase = .waitCount)
    (hrx : ∀ b rest, receive 1 s.env.rx ≠ .ok [b] rest) : s.work = s.recvByteFails := by
  have hf : s.fetch = .nothing := by
    rcases receive_one_cases s.env.rx with ⟨-, h⟩ | ⟨b, rest, -, h⟩ | ⟨e, rest, -, h⟩
    · rcases hp with hp | hp <;> simp [fetch_no_call hc, hp, State.fetchReply, h]
    · exact absurd h (hrx b rest)
    · rcases hp with hp | hp <;> simp [fetch_no_call hc, hp, State.fetchReply, h]
  rw [work_nothing hf]
  rcases hp with hp | hp <;> simp only [State.agentStep, hp]

/-! ## Replies -/

/-- Settles O33: zero is TIMEOUT, as the status byte and as the count byte. -/
theorem zeroReplyFailsWithTimeout : Obligations.ZeroReplyFailsWithTimeout := by
  rintro s (hp | hp)
  · exact (replyStep_waitStatus hp _).trans (statusStep_zero s)
  · exact (replyStep_waitCount hp _).trans (countStep_zero s)

/-- Settles O34: the accepted byte runs the status step, and a write ends there (row 14). -/
theorem acceptedStatusCompletesWrites : Obligations.AcceptedStatusCompletesWrites := by
  intro b l s hp hb hl hop
  have hacc : isAccepted b = true := hb
  have hexec : exec (.replyAccept b) s = (s.record (.recv 1 (.ok [b]))).afterStatus :=
    (replyStep_waitStatus hp b).trans (statusStep_accepted hacc s)
  rw [hexec, afterStatus_write (s := s.record _) hl hop]
  rfl

/-! ## Sends -/

/-- The answer to the send in progress completes it (R17). -/
theorem onSendDone_cons {s : State} {m : List Byte} {st : SendStatus} {rest : List SendStatus}
    (k : SendStatus → State → Out) (hm : s.block.txbuf = some m) (htx : s.env.tx = st :: rest) :
    s.onSendDone k = k st ({ s with env.tx := rest }.record (.send m st)) := by
  simp [State.onSendDone, htx, hm, State.popTx]

theorem sendADone_ok {s : State} {m : List Byte} {l : Latch} {rest : List SendStatus}
    (hm : s.block.txbuf = some m) (hl : s.block.latch = some l) (htx : s.env.tx = .ok :: rest) :
    s.sendADone = .next (({ s with env.tx := rest }.record (.send m .ok)).toPhase
      (if l.op = 0x01#8 then .waitCount else .waitStatus)) := by
  simp only [State.sendADone, onSendDone_cons _ hm htx, State.record_block, hl]

/-- Settles O39: rows 9 and 10. -/
theorem firstSendCompletes : Obligations.FirstSendCompletes := by
  intro s m l rest hres hcalls hp hm hl
  rw [step_of_nil hres, work_sendA hcalls hp]
  refine ⟨fun htx => sendADone_ok hm hl htx, fun e htx => ?_⟩
  rw [State.sendADone, onSendDone_cons _ hm htx]
  rfl

/-- Settles O40: rows 18 and 19. -/
theorem secondSendCompletes : Obligations.SecondSendCompletes := by
  intro s m rest hres hcalls hp hm
  rw [step_of_nil hres, work_sendB hcalls hp]
  refine ⟨fun htx => ?_, fun e htx => ?_⟩
  · rw [State.sendBDone, onSendDone_cons _ hm htx]
    rfl
  · rw [State.sendBDone, onSendDone_cons _ hm htx]
    rfl

/-- Settles O41: rows 26 and 27 do not look at the outcome. -/
theorem setFreqIgnoresSendOutcomes : Obligations.SetFreqIgnoresSendOutcomes := by
  intro s m st rest hres hcalls hm htx
  rw [step_of_nil hres]
  refine ⟨fun hp => ?_, fun hp => ?_⟩
  · rw [work_sendF hcalls hp, State.sendFDone, onSendDone_cons _ hm htx]
    rfl
  · rw [work_sendRst hcalls hp, State.sendRstDone, onSendDone_cons _ hm htx]
    rfl

/-! ## The response -/

/-- The descriptor of a successful result is its length in bits 15 to 8 (R64). -/
theorem rspDescOf_ok (len : Byte) : rspDescOf (.ok len) = len.setWidth 32 <<< 8 := by
  ext i hi
  simp only [rspDescOf, BitVec.getElem_shiftLeft, BitVec.getElem_setWidth]
  grind

/-- The data of a response is what RXBUF holds, none for a length of zero (R16, R25). -/
theorem rspDataOf_ok {rxbuf : Option (List Byte)} {len : Byte} {d : List Byte}
    (h : len = 0#8 ∧ d = [] ∨ rxbuf = some d ∧ d.length = len.toNat) :
    rspDataOf rxbuf (.ok len) = some d := by
  rcases h with ⟨rfl, rfl⟩ | ⟨rfl, hlen⟩
  · rfl
  · by_cases h0 : len = 0#8
    · have hd : d = [] := List.length_eq_zero_iff.1 (by simp [hlen, h0])
      simp [rspDataOf, h0, hd]
    · rw [rspDataOf, if_neg h0, memRead_zero_eq hlen.ge, List.take_of_length_le hlen.le]

theorem responseStep_ready {s : State} {l : Latch} {r : Result} {data : List Byte}
    (hready : s.env.rspReady = true) (hr : s.block.result = some r) (hl : s.block.latch = some l)
    (hd : rspDataOf s.block.rxbuf r = some data) : s.responseStep = .next (s.retire l r data) := by
  simp only [State.responseStep, hready, hr, hl, hd, if_true]

theorem responseStep_not_ready {s : State} (hready : s.env.rspReady = false) :
    s.responseStep = .next s := by
  simp [State.responseStep, hready]

/-- What a response step can do: wait for the caller, or deliver RESULT and retire the operation. -/
theorem responseStep_next {s t : State} (ho : s.responseStep = .next t) :
    (s.env.rspReady = false ∧ t = s) ∨
    ∃ r l data, s.env.rspReady = true ∧ s.block.result = some r ∧
      rspDataOf s.block.rxbuf r = some data ∧ t = s.retire l r data := by
  unfold State.responseStep at ho
  split at ho
  · next hready =>
    split at ho
    · next r l hr hl =>
      split at ho
      · next data hd => cases ho; exact .inr ⟨r, l, data, hready, hr, hd, rfl⟩
      · cases ho
    · cases ho
    · cases ho
  · next hready => cases ho; exact .inl ⟨by simpa using hready, rfl⟩

theorem work_response {s : State} (hc : s.env.calls = [])
    (hp : s.block.phase = .done ∨ s.block.phase = .failed) : s.work = s.responseStep := by
  rcases hp with hp | hp
  · rw [work_agent hc hp (by decide)]
    simp only [State.agentStep, hp]
  · rw [work_agent hc hp (by decide)]
    simp only [State.agentStep, hp]

/-- Settles O45: in DONE and FAILED the step is the response step. -/
theorem responseIsDeliveredAndRetired : Obligations.ResponseIsDeliveredAndRetired := by
  intro s l hres hcalls hl
  rw [step_of_nil hres]
  refine ⟨fun len d hready hp hr hd => ?_, fun k hready hp hr => ?_, fun hready hp => ?_⟩
  · rw [work_response hcalls (.inl hp), responseStep_ready hready hr hl (rspDataOf_ok hd), State.retire,
      rspDescOf_ok]
    rfl
  · rw [work_response hcalls (.inr hp), responseStep_ready hready hr hl rfl]
    rfl
  · rw [work_response hcalls hp, responseStep_not_ready hready]

/-! ## A phase without its event -/

theorem offers_sending {s : State} (hv : s.block.txValid = true) :
    s.offers = s.env.tx.head?.map .sendDone := by
  rcases txValid_iff.1 hv with hp | hp | hp | hp <;> simp only [State.offers, hp]

theorem offers_response {s : State} (hp : s.block.phase = .done ∨ s.block.phase = .failed) :
    s.offers = if s.env.rspReady then some .response else none := by
  rcases hp with hp | hp <;> simp only [State.offers, hp]

/-- In a receiving phase the event is the end of the receive the block asks for (R18). -/
theorem offers_receiving {s : State} {k : Byte} (hk : s.block.rxCount = some k) :
    s.offers = match receive k.toNat s.env.rx with
      | .ok bs _ => some (.recvDone (.ok bs))
      | .err e _ => some (.recvDone (.err e))
      | .pending => none := by
  rcases rxCount_cases hk with ⟨hp | hp, rfl⟩ | ⟨hp, hc⟩
  · simp only [State.offers, hp]
    rfl
  · simp only [State.offers, hp]
    rfl
  · simp only [State.offers, hp, hc]
    rfl

theorem receive_of_offers_none {s : State} {k : Byte} (hk : s.block.rxCount = some k)
    (hn : s.offers = none) : receive k.toNat s.env.rx = .pending := by
  rw [offers_receiving hk] at hn
  cases hrx : receive k.toNat s.env.rx with
  | pending => rfl
  | ok bs rest => simp [hrx] at hn
  | err e rest => simp [hrx] at hn

theorem onSendDone_of_offers_none {s : State} (k : SendStatus → State → Out)
    (hv : s.block.txValid = true) (hn : s.offers = none) : s.onSendDone k = .next s := by
  have htx : s.env.tx = [] := by simpa [offers_sending hv] using hn
  simp [State.onSendDone, htx]

/-- A one-byte wait without its event has neither a byte nor an error to work on. -/
theorem work_waitByte_of_offers_none {s : State} (hc : s.env.calls = [])
    (hp : s.block.phase = .waitStatus ∨ s.block.phase = .waitCount) (hn : s.offers = none) :
    s.work = .next s := by
  have hone : s.block.rxCount = some 1#8 := by rcases hp with hp | hp <;> simp [Block.rxCount, hp]
  have hrx : receive 1 s.env.rx = .pending := receive_of_offers_none hone hn
  rw [work_no_reply hc hp (by simp [hrx])]
  simp only [State.recvByteFails, hrx]

/-- Outside DELAYING a state that offers no event stays (R89). A payload receive waits for COUNT bytes, so
a receive that waits has its COUNT. -/
theorem work_of_offers_none {s : State} (hc : s.env.calls = []) (hd : s.block.phase ≠ .delaying)
    (hn : s.offers = none) : s.work = .next s := by
  cases hp : s.block.phase with
  | idle =>
    have hq : s.env.reqs = [] := by simpa [State.offers, hp] using hn
    have hf : s.fetch = .nothing := by simp [fetch_no_call hc, hp, State.fetchRequest, hq]
    rw [work_nothing hf]
    simp only [State.agentStep, hp]
  | waitStatus => exact work_waitByte_of_offers_none hc (.inl hp) hn
  | waitCount => exact work_waitByte_of_offers_none hc (.inr hp) hn
  | waitPayload =>
    rw [work_agent hc hp (by decide)]
    cases hcount : s.block.count with
    | none => simp [State.offers, hp, hcount] at hn
    | some c =>
      have hrx := receive_of_offers_none (k := c) (by simp [Block.rxCount, hp, hcount]) hn
      simp only [State.agentStep, hp, State.payloadStep, hcount, hrx]
  | done | failed =>
    have hready : s.env.rspReady = false := by simpa [offers_response, hp] using hn
    rw [work_response hc (by simp [hp]), responseStep_not_ready hready]
  | delaying => exact absurd hp hd
  | sendA | sendB | sendF | sendRst =>
    have hv : s.block.txValid = true := txValid_iff.2 (by simp [hp])
    rw [work_agent hc hp (by decide)]
    simp only [State.agentStep, hp]
    exact onSendDone_of_offers_none _ hv hn

/-- Settles O46: no event, no work. -/
theorem phasesWithoutEventStay : Obligations.PhasesWithoutEventStay := by
  intro s _ hres hcalls hd hn
  rw [step_of_nil hres]
  exact work_of_offers_none hcalls hd hn

/-! ## Failure -/

theorem decodeTagArg_format {t : Tag} {bs rest : List Byte} {i : Instr}
    (h : decodeTagArg t bs = .ok (i, rest)) : i.format = .wire .tag := by
  unfold decodeTagArg at h
  split at h <;> cases h <;> rfl

theorem decodeTag_format {bs rest : List Byte} {i : Instr} (h : decodeTag bs = .ok (i, rest)) :
    i.format = .wire .tag := by
  unfold decodeTag at h
  repeat' split at h
  · cases h
  · cases h; rfl
  · exact decodeTagArg_format h
  · cases h

theorem decodeBody_format {reg : Bool} {dev len cmd : Byte} {bs rest : List Byte} {i : Instr}
    (h : decodeBody reg dev len cmd bs = .ok (i, rest)) : ∃ f, i.format = .wire f := by
  simp only [decodeBody] at h
  split_ifs at h
  · cases h; exact ⟨_, rfl⟩
  · split at h <;> cases h
    exact ⟨_, rfl⟩
  · split at h <;> cases h
    exact ⟨_, rfl⟩
  · cases h; exact ⟨_, rfl⟩

theorem decodeSegment_format {reg : Bool} {bs rest : List Byte} {i : Instr}
    (h : decodeSegment reg bs = .ok (i, rest)) : ∃ f, i.format = .wire f := by
  unfold decodeSegment at h
  split at h
  · split_ifs at h
    · cases h; exact ⟨_, rfl⟩
    · split at h
      · exact decodeBody_format h
      · cases h
  · cases h

/-- A codec call runs a wire row, whatever its bytes (R52, R54; log 11). -/
theorem decodeWire_format {f : WireForm} {bs rest : List Byte} {i : Instr}
    (h : decodeWire f bs = .ok (i, rest)) : ∃ g, i.format = .wire g := by
  cases f with
  | tag => exact ⟨_, decodeTag_format h⟩
  | rawSegment => exact decodeSegment_format h
  | regSegment => exact decodeSegment_format h

/-- The outcome of a step in FAILED: the failure stays, or RESULT is delivered and the operation retired
(R88, R103). -/
inductive State.AfterFailure (s : State) : State → Prop where
  | stays (t : State) : t.block = s.block → t.log = s.log → t.env.tx = s.env.tx →
      t.env.rx = s.env.rx → t.env.reqs = s.env.reqs → s.AfterFailure t
  | delivered (l : Latch) (r : Result) (data : List Byte) : s.env.rspReady = true →
      s.block.result = some r → rspDataOf s.block.rxbuf r = some data → s.AfterFailure (s.retire l r data)

/-- A codec call in FAILED only emits; without one the response step runs. -/
theorem work_failed {s t : State} (hp : s.block.phase = .failed) (ho : s.work = .next t) :
    s.AfterFailure t := by
  cases hc : s.env.calls with
  | nil =>
    rw [work_response hc (.inr hp)] at ho
    rcases responseStep_next ho with ⟨-, rfl⟩ | ⟨r, l, data, hready, hr, hd, rfl⟩
    · exact .stays _ rfl rfl rfl rfl rfl
    · exact .delivered l r data hready hr hd
  | cons c rest =>
    unfold State.work at ho
    rw [fetch_call hc, State.fetchCall] at ho
    cases hdec : decodeWire c.form c.bytes with
    | error e => rw [hdec] at ho; cases ho
    | ok x =>
      obtain ⟨i, more⟩ := x
      obtain ⟨f, hi⟩ := decodeWire_format hdec
      simp only [hdec] at ho
      rcases wire_row hi { s with env.calls := s.env.calls.tail } with ⟨bs, he⟩ | ⟨r, he⟩
      · rw [he] at ho; cases ho; exact .stays _ rfl rfl rfl rfl rfl
      · rw [he] at ho; cases ho

/-- Settles O58: a step is a due reset, or the work of FAILED. -/
theorem failureIsTerminal : Obligations.FailureIsTerminal := by
  intro s t hp ho
  rcases resetDue_cases s with ⟨rest, hz, hd⟩ | ⟨rs, -, hd⟩
  · simp only [step, hd] at ho
    cases ho
    have hhead : s.env.resets.head? = some 0 := by rw [hz]; rfl
    refine ⟨.inr (.inr ⟨rfl, hhead, rfl⟩), ?_, ?_, .inr ⟨hhead, rfl⟩, rfl⟩
    · simp [State.resetStep, hp, Phase.sending]
    · simp [State.resetStep, hp, Phase.midOperation]
  · simp only [step, hd] at ho
    cases work_failed (s := { s with env.resets := rs }) hp ho with
    | stays _ hb hl htx hrx hq =>
      exact ⟨.inl ⟨hb, congrArg Log.responses hl⟩, htx, hrx, .inl (congrArg Log.trace hl), hq⟩
    | delivered l r data hready hr hdata =>
      refine ⟨.inr (.inl ⟨rfl, hready, r, data, hr, ?_, rfl⟩), rfl, rfl, .inl rfl, rfl⟩
      rintro k rfl
      exact (Option.some.inj hdata).symm

/-! ## The table of R90 -/

theorem recvCount_eq_count (tr : List Transaction) :
    recvCount tr = (tr.map Transaction.planned).count .recv := by
  induction tr with
  | nil => rfl
  | cons x tr ih => cases x <;> simp [recvCount, Transaction.planned, ih]

/-- Every transaction is a send or a receive. -/
theorem sentMessages_length_add_recvCount (tr : List Transaction) :
    (sentMessages tr).length + recvCount tr = (tr.map Transaction.planned).length := by
  induction tr with
  | nil => rfl
  | cons x tr ih => cases x <;> simp [sentMessages, recvCount] at ih ⊢ <;> omega

/-- A trace has the receives of its plan, and all else in it is sends. -/
theorem counts_of_planned {tr : List Transaction} {pl : List PlannedTransaction}
    (h : tr.map Transaction.planned = pl) :
    recvCount tr = pl.count .recv ∧ (sentMessages tr).length = pl.length - pl.count .recv := by
  have hsum := sentMessages_length_add_recvCount tr
  rw [recvCount_eq_count, h] at hsum
  exact ⟨by rw [recvCount_eq_count, h], by omega⟩

/-- The plan of `l` is one send and then `n` receives. -/
def OneSend (l : Latch) (p : List Byte) (n : Nat) : Prop :=
  ∃ m, plan l p = .send m :: List.replicate n .recv

theorem oneSend_write {l : Latch} (h : l.op = 0x00#8 ∨ l.op = 0x02#8) (p : List Byte) :
    OneSend l p 1 := by
  rcases h with h | h <;> simp [OneSend, plan, h]

theorem oneSend_readRaw {l : Latch} (h : l.op = 0x01#8) (p : List Byte) : OneSend l p 2 := by
  simp [OneSend, plan, h]

theorem oneSend_readReg {l : Latch} (h : l.op = 0x03#8) (h0 : l.delay = 0#32) (p : List Byte) :
    OneSend l p 3 := by
  simp [OneSend, plan, h, h0]

/-- The first transactions of a plan with one send are that send and receives. -/
theorem OneSend.counts {s : State} {l : Latch} {p : List Byte} {n j : Nat} (h : OneSend l p n)
    (hi : s.Issued l p (j + 1)) :
    (sentMessages s.log.trace).length = 1 ∧ recvCount s.log.trace = min j n := by
  obtain ⟨m, hm⟩ := h
  have htr : s.log.trace.map Transaction.planned = .send m :: List.replicate (min j n) .recv := by
    simpa [State.Issued, hm] using hi
  obtain ⟨hrecv, hsend⟩ := counts_of_planned htr
  exact ⟨by simpa using hsend, by simpa using hrecv⟩

theorem OneSend.counts_done {s : State} {l : Latch} {p : List Byte} {n : Nat} (h : OneSend l p n)
    (hi : s.Issued l p (plan l p).length) :
    (sentMessages s.log.trace).length = 1 ∧ recvCount s.log.trace = n := by
  have ⟨m, hm⟩ := h
  have hlen : (plan l p).length = n + 1 := by simp [hm]
  have hcounts := h.counts (j := n) (hlen ▸ hi)
  rwa [Nat.min_self] at hcounts

theorem OneSend.counts_failed {s : State} {l : Latch} {p : List Byte} {n j : Nat} (h : OneSend l p n)
    (hi : s.Issued l p (j + 1)) :
    (sentMessages s.log.trace).length = 1 ∧ recvCount s.log.trace ≤ n := by
  obtain ⟨hsend, hrecv⟩ := h.counts hi
  exact ⟨hsend, hrecv.trans_le (Nat.min_le_right j n)⟩

/-- The delayed READ_REG sends again after its acknowledgment (R87). -/
theorem counts_delayed {s : State} {l : Latch} {p : List Byte} {j : Nat} (h : l.delayed) (hj : j < 5)
    (hi : s.Issued l p (j + 1)) :
    (j < 2 ∧ (sentMessages s.log.trace).length = 1 ∧ recvCount s.log.trace = j) ∨
    (2 ≤ j ∧ (sentMessages s.log.trace).length = 2 ∧ recvCount s.log.trace = j - 1) := by
  rw [State.Issued, plan_delayed h] at hi
  obtain ⟨hrecv, hsend⟩ := counts_of_planned hi
  rw [hrecv, hsend]
  interval_cases j <;> simp

/-- A received byte that went well was accepted (R62). -/
theorem accepted_of_succeeded_recv {x : Transaction} (hx : x.planned = .recv)
    (hok : x.succeeded = true) : ∃ k a, x = .recv k (.ok [a]) ∧ isAccepted a = true := by
  unfold Transaction.succeeded at hok
  split at hok
  · cases hx
  · cases hok
  · next k a => exact ⟨k, a, rfl, hok⟩
  · cases hok

/-- The second transaction of the delayed READ_REG is the acknowledgment; once a later one has been made
it went well. -/
theorem acknowledged_delayed {s : State} {l : Latch} {p : List Byte} {good : List Transaction}
    {bad : Transaction} (h : l.delayed) (htr : s.log.trace = good ++ [bad])
    (hi : s.Issued l p (good.length + 1)) (hgood : ∀ x ∈ good, x.succeeded = true)
    (hlen : 2 ≤ good.length) :
    ∃ k a, s.log.trace[1]? = some (.recv k (.ok [a])) ∧ isAccepted a = true := by
  have hsecond : s.log.trace[1]? = some good[1] := by
    rw [htr, List.getElem?_append_left hlen, List.getElem?_eq_getElem]
  have hplanned : good[1].planned = .recv := by
    have hmap := congrArg (·[1]?) hi
    have hin : 0 < good.length := by omega
    simpa [hsecond, plan_delayed h, List.getElem?_take, hin] using hmap
  obtain ⟨k, a, hx, ha⟩ := accepted_of_succeeded_recv hplanned (hgood _ (List.getElem_mem _))
  exact ⟨k, a, hx ▸ hsecond, ha⟩

/-- A failed operation was refused and has made no transaction, or it was not and its last transaction is
the one that went wrong (R88, R99). -/
theorem failed_cases {s : State} {l : Latch} {p : List Byte} (h : s.Consistent) (hf : s.TraceFollowsPlan)
    (hp : s.block.phase = .failed) (hl : s.block.latch = some l) (hpb : s.block.pbuf = some p) :
    (l.rejected ∧ s.log.trace = []) ∨
    (¬ l.rejected ∧ ∃ good bad, s.log.trace = good ++ [bad] ∧ good.length < (plan l p).length ∧
      s.Issued l p (good.length + 1) ∧ ∀ x ∈ good, x.succeeded = true) := by
  have hb := h.block
  simp only [Block.Consistent, hp] at hb
  obtain ⟨-, -, l', p', k, hl', -, hr, hrej, -⟩ := hb
  cases hl.symm.trans hl'
  have htrace : s.FailedTrace l p := by simpa [State.TraceFollowsPlan, hp] using hf l p hl hpb
  rcases htrace with ⟨hnil, hres⟩ | ⟨good, bad, k', htr, hlen, hi, hgood, hbad, hres⟩
  · cases hr.symm.trans hres
    exact .inl ⟨hrej.1 rfl, hnil⟩
  · cases hr.symm.trans hres
    exact .inr ⟨fun hl => failure_ne_protocol hbad (hrej.2 hl), good, bad, htr, hlen, hi, hgood⟩

/-- Settles O55: the transactions made are the plan's, all of them in DONE and the first ones in FAILED. -/
theorem transactionsPerOperation : Obligations.TransactionsPerOperation := by
  rintro s l p _ _ h hf hl hpb rfl rfl
  refine ⟨fun hp => ?_, fun hp => ?_⟩
  · have hi : s.Issued l p (plan l p).length := by
      simpa [State.TraceFollowsPlan, hp] using hf l p hl hpb
    refine ⟨fun hop => (oneSend_write hop p).counts_done hi,
      fun hop => (oneSend_readRaw hop p).counts_done hi,
      fun hop h0 => (oneSend_readReg hop h0 p).counts_done hi, fun hop h0 => ?_, fun hop => ?_⟩
    · have hfive : (plan l p).length = 4 + 1 := by rw [plan_delayed ⟨hop, h0⟩]; rfl
      rcases counts_delayed ⟨hop, h0⟩ (by decide) (hfive ▸ hi) with ⟨hlt, -⟩ | ⟨-, hsend, hrecv⟩
      · omega
      · exact ⟨hsend, hrecv⟩
    · rw [State.Issued, plan_setFreq hop] at hi
      obtain ⟨hrecv, hsend⟩ := counts_of_planned hi
      exact ⟨by simpa using hsend, by simpa using hrecv⟩
  · rcases failed_cases h hf hp hl hpb with ⟨hrej, hnil⟩ | ⟨hnot, good, bad, htr, hlen, hi, hgood⟩
    · refine ⟨fun _ => ?_, fun hn => absurd hrej hn⟩
      rw [hnil]
      exact ⟨rfl, rfl⟩
    · refine ⟨fun hrej => absurd hrej hnot, fun _ => ⟨fun hop => (oneSend_write hop p).counts_failed hi,
        fun hop => (oneSend_readRaw hop p).counts_failed hi,
        fun hop h0 => (oneSend_readReg hop h0 p).counts_failed hi, fun hop h0 => ?_⟩⟩
      have hfive : good.length < 5 := by rwa [plan_delayed ⟨hop, h0⟩] at hlen
      rcases counts_delayed ⟨hop, h0⟩ hfive hi with ⟨hlt, hsend, hrecv⟩ | ⟨hge, hsend, hrecv⟩
      · exact .inl ⟨hsend, by omega⟩
      · exact .inr ⟨hsend, by omega, by omega, acknowledged_delayed ⟨hop, h0⟩ htr hi hgood hge⟩

/-! ## The transition table -/

/-- Rows 11, 20 and 24: a failed receive, in each of the three waits. -/
theorem Row.recvFails {b : Block} (hv : b.rxReqValid = true) (e : TErr) :
    Row b (.recvDone (.err e)) (b.fails (recvError e)) := by
  cases he : Config.isTimeout e with
  | true =>
    rw [recvError, if_pos he]
    rcases rxReqValid_iff.1 hv with hp | hp | hp
    · exact .r11timeout b e hp he
    · exact .r20timeout b e hp he
    · exact .r24timeout b e hp he
  | false =>
    rw [recvError, if_neg (by simp [he])]
    rcases rxReqValid_iff.1 hv with hp | hp | hp
    · exact .r11transport b e hp he
    · exact .r20transport b e hp he
    · exact .r24transport b e hp he

/-- Rows 1 and 8: a refused request. -/
theorem Row.rejected {b : Block} {r : Request} (hp : b.phase = .idle) (h : r.latch.rejected) :
    Row b (.request r) ((b.latched r).fails .protocol) := by
  rcases h with h | ⟨hop, h⟩ | ⟨hop, h⟩
  · exact .r8 b r hp h
  · exact .r1raw b r hp hop h
  · exact .r1reg b r hp hop h

/-- Rows 2 to 7: an accepted request, with the first of its planned messages. -/
theorem Row.accepted {b : Block} {r : Request} {m : List Byte} (hp : b.phase = .idle)
    (h : Accepted r.latch r.pbuf) (hm : (plannedSends r.latch r.pbuf)[0]? = some m) :
    Row b (.request r) { b.latched r with
      txbuf := some m, phase := if r.latch.op = 0x04#8 then .sendF else .sendA } := by
  have hrej := h.notRejected
  simp only [Latch.rejected, not_or, not_and, not_lt] at hrej
  obtain ⟨-, hraw, hreg⟩ := hrej
  rcases h.op_cases with h1 | (h0 | h2 | h3) | h4
  · obtain rfl : buildReadRequest r.latch.dev r.latch.n = m := by simpa [plannedSends, h1] using hm
    simpa [h1] using Row.r4 b r hp h1
  · obtain rfl : buildWrite r.latch.dev r.pbuf = m := by simpa [plannedSends, h0] using hm
    simpa [h0] using Row.r2 b r hp h0 (hraw h0)
  · obtain rfl : buildWriteRegister r.latch.dev r.latch.reg r.pbuf = m := by
      simpa [plannedSends, h2] using hm
    simpa [h2] using Row.r3 b r hp h2 (hreg h2)
  · by_cases hd : r.latch.delay = 0#32
    · obtain rfl : buildCombined r.latch.dev r.latch.reg r.latch.n = m := by
        simpa [plannedSends, h3, hd] using hm
      simpa [h3, buildCombined] using Row.r5 b r hp h3 hd
    · obtain rfl : buildWriteRestart r.latch.dev r.latch.reg = m := by
        simpa [plannedSends, h3, hd] using hm
      simpa [h3] using Row.r6 b r hp h3 hd
  · obtain rfl : Config.freqPacket (freqByte r.latch.hz) = m := by simpa [plannedSends, h4] using hm
    simpa [h4] using Row.r7 b r hp h4

theorem Row.of_request {s t : State} {r : Request} {rest : List Request} (hp : s.block.phase = .idle)
    (ho : exec (decodeDesc r.desc) { s with env.reqs := rest, env.payload := r.payload } = .next t) :
    Row s.block (.request r) t.block := by
  rcases exec_request_cases r.desc { s with env.reqs := rest, env.payload := r.payload } hp with
    ⟨hrej, h⟩ | ⟨hacc, m, hm, h⟩ | ⟨-, h⟩
  · rw [h] at ho; cases ho; exact .rejected hp hrej
  · rw [h] at ho; cases ho; exact .accepted hp hacc hm
  · rw [h] at ho; cases ho

/-- What an accepted status byte leads to (rows 14 to 16). -/
theorem afterStatus_next {s t : State} (ho : s.afterStatus = .next t) :
    ∃ l, s.block.latch = some l ∧
      (((l.op = 0x00#8 ∨ l.op = 0x02#8) ∧ t = s.respondOk 0#8) ∨
       (l.op = 0x03#8 ∧ l.delay = 0#32 ∧ t = s.toPhase .waitCount) ∨
       (l.op = 0x03#8 ∧ l.delay ≠ 0#32 ∧
        t = { s with block.timer := some l.delay, block.phase := .delaying })) := by
  unfold State.afterStatus at ho
  split at ho
  · cases ho
  · next l hl =>
    refine ⟨l, hl, ?_⟩
    split_ifs at ho with hw h3 h0
    · cases ho; exact .inl ⟨hw, rfl⟩
    · cases ho; exact .inr (.inl ⟨h3, h0, rfl⟩)
    · cases ho; exact .inr (.inr ⟨h3, h0, rfl⟩)

/-- Rows 12 to 16. -/
theorem Row.of_statusStep {s t : State} {b : Byte} (hp : s.block.phase = .waitStatus)
    (ho : s.statusStep b = .next t) : Row s.block (.recvDone (.ok [b])) t.block := by
  rcases reply_class b with rfl | ⟨k, rfl⟩ | hb
  · rw [statusStep_zero] at ho; cases ho; exact .r12 _ hp
  · rw [statusStep_err] at ho; cases ho; exact .r13 _ k hp
  · rw [statusStep_accepted hb] at ho
    obtain ⟨l, hl, ⟨hop, rfl⟩ | ⟨hop, h0, rfl⟩ | ⟨hop, h0, rfl⟩⟩ := afterStatus_next ho
    · exact .r14 _ l b hp hb hl hop
    · exact .r15 _ l b hp hb hl hop h0
    · exact .r16 _ l b hp hb hl hop h0

/-- Rows 21 to 23. -/
theorem Row.of_countStep {s t : State} {b : Byte} (hp : s.block.phase = .waitCount)
    (ho : s.countStep b = .next t) : Row s.block (.recvDone (.ok [b])) t.block := by
  rcases reply_class b with rfl | ⟨k, rfl⟩ | hb
  · rw [countStep_zero] at ho; cases ho; exact .r21 _ hp
  · rw [countStep_err] at ho; cases ho; exact .r22 _ k hp
  · rw [countStep_accepted hb] at ho; cases ho; exact .r23 _ b hp hb

theorem Row.of_replyStep {s t : State} {b : Byte}
    (hp : s.block.phase = .waitStatus ∨ s.block.phase = .waitCount)
    (ho : s.replyStep b = .next t) : Row s.block (.recvDone (.ok [b])) t.block := by
  rcases hp with hp | hp
  · exact Row.of_statusStep hp (replyStep_waitStatus hp b ▸ ho)
  · exact Row.of_countStep hp (replyStep_waitCount hp b ▸ ho)

/-- The event of a one-byte wait is its byte or its error, and the work is the row of either. -/
theorem Row.of_waitByte {s t : State} {e : Event} (hc : s.env.calls = [])
    (hp : s.block.phase = .waitStatus ∨ s.block.phase = .waitCount) (he : s.offers = some e)
    (ho : s.work = .next t) : Row s.block e t.block := by
  have hone : s.block.rxCount = some 1#8 := by rcases hp with hp | hp <;> simp [Block.rxCount, hp]
  have hv : s.block.rxReqValid = true := rxReqValid_iff.2 (hp.imp_right .inl)
  have hoff : s.offers = _ := offers_receiving hone
  rw [he, BitVec.toNat_ofNat] at hoff
  rcases receive_one_cases s.env.rx with ⟨-, hrx⟩ | ⟨b, rest, hcons, hrx⟩ | ⟨x, rest, -, hrx⟩
  · simp [hrx] at hoff
  · obtain rfl : e = .recvDone (.ok [b]) := by simpa [hrx] using hoff
    rw [work_reply hc hp hcons] at ho
    exact Row.of_replyStep (s := s.setRx rest) hp ho
  · obtain rfl : e = .recvDone (.err x) := by simpa [hrx] using hoff
    rw [work_no_reply hc hp (by simp [hrx]), recvByteFails_err hrx] at ho
    cases ho
    exact .recvFails hv x

/-- Rows 24 and 25. -/
theorem Row.of_payloadStep {s t : State} {e : Event} (hp : s.block.phase = .waitPayload)
    (he : s.offers = some e) (ho : s.payloadStep = .next t) : Row s.block e t.block := by
  cases hcount : s.block.count with
  | none => simp [State.payloadStep, hcount] at ho
  | some c =>
    have hoff : s.offers = _ := offers_receiving (k := c) (by simp [Block.rxCount, hp, hcount])
    rw [he] at hoff
    cases hrx : receive c.toNat s.env.rx with
    | pending => simp [hrx] at hoff
    | err x rest =>
      obtain rfl : e = .recvDone (.err x) := by simpa [hrx] using hoff
      rw [payloadStep_err hcount hrx] at ho
      cases ho
      exact .recvFails (rxReqValid_iff.2 (.inr (.inr hp))) x
    | ok bs rest =>
      obtain rfl : e = .recvDone (.ok bs) := by simpa [hrx] using hoff
      rw [payloadStep_ok hcount hrx] at ho
      cases ho
      exact .r25 _ c bs hp hcount (receive_ok_length hrx)

/-- The event of a sending phase is the send's outcome, which the step acts on with the elements as they
are. -/
theorem onSendDone_of_offers {s t : State} {e : Event} {k : SendStatus → State → Out}
    (hv : s.block.txValid = true) (he : s.offers = some e) (ho : s.onSendDone k = .next t) :
    ∃ st u, e = .sendDone st ∧ u.block = s.block ∧ k st u = .next t := by
  rw [offers_sending hv] at he
  rcases onSendDone_cases k s with ⟨htx, -⟩ | ⟨_, _, -, -, h⟩ | ⟨st, rest, m, htx, -, h⟩
  · simp [htx] at he
  · rw [h] at ho; cases ho
  · obtain rfl : e = .sendDone st := by simpa [htx, eq_comm] using he
    exact ⟨st, s.popTx.record (.send m st), rfl, rfl, h.symm.trans ho⟩

/-- Rows 9 and 10. -/
theorem Row.of_sendADone {s t : State} {e : Event} (hp : s.block.phase = .sendA) (he : s.offers = some e)
    (ho : s.sendADone = .next t) : Row s.block e t.block := by
  obtain ⟨st, u, rfl, hu, h⟩ := onSendDone_of_offers (txValid_iff.2 (.inl hp)) he ho
  rw [← hu] at hp ⊢
  cases st with
  | err x => cases h; exact .r10 _ x hp
  | ok =>
    cases hl : u.block.latch with
    | none => simp [hl] at h
    | some l =>
      obtain rfl : u.toPhase _ = t := by simpa [hl] using h
      split
      · next hop => exact .r9read _ l hp hl hop
      · next hop => exact .r9other _ l hp hl hop

/-- Rows 18 and 19. -/
theorem Row.of_sendBDone {s t : State} {e : Event} (hp : s.block.phase = .sendB) (he : s.offers = some e)
    (ho : s.sendBDone = .next t) : Row s.block e t.block := by
  obtain ⟨st, u, rfl, hu, h⟩ := onSendDone_of_offers (txValid_iff.2 (.inr (.inl hp))) he ho
  rw [← hu] at hp ⊢
  cases st with
  | err x => cases h; exact .r19 _ x hp
  | ok => cases h; exact .r18 _ hp

theorem Row.of_sendFDone {s t : State} {e : Event} (hp : s.block.phase = .sendF) (he : s.offers = some e)
    (ho : s.sendFDone = .next t) : Row s.block e t.block := by
  obtain ⟨st, u, rfl, hu, h⟩ := onSendDone_of_offers (txValid_iff.2 (.inr (.inr (.inl hp)))) he ho
  rw [← hu] at hp ⊢
  cases h
  exact .r26 _ st hp

theorem Row.of_sendRstDone {s t : State} {e : Event} (hp : s.block.phase = .sendRst)
    (he : s.offers = some e) (ho : s.sendRstDone = .next t) : Row s.block e t.block := by
  obtain ⟨st, u, rfl, hu, h⟩ := onSendDone_of_offers (txValid_iff.2 (.inr (.inr (.inr hp)))) he ho
  rw [← hu] at hp ⊢
  cases h
  exact .r27 _ st hp

/-- Row 17: the expiry comes when TIMER has run down and the lag is over (R106; log 7). -/
theorem Row.of_delayStep {s t : State} {e : Event} (hp : s.block.phase = .delaying)
    (he : s.offers = some e) (ho : s.delayStep = .next t) : Row s.block e t.block := by
  obtain ⟨⟨htimer, hlag⟩, rfl⟩ :
      (s.block.timer = some 0#32 ∧ s.env.lags.head? = some 0) ∧ .expiry = e := by
    simpa [State.offers, hp] using he
  obtain ⟨rest, hlags⟩ := List.head?_eq_some_iff.1 hlag
  cases hl : s.block.latch with
  | none => simp [State.delayStep, htimer, hlags, State.timerExpiry, hl] at ho
  | some l =>
    obtain rfl : State.startSend .sendB (buildReadFollow l.n)
        { s with env.lags := rest, block.timer := none } = t := by
      simpa [State.delayStep, htimer, hlags, State.timerExpiry, hl] using ho
    exact .r17 _ l hp hl htimer

/-- Row 28. -/
theorem Row.of_responseStep {s t : State} {e : Event} (hp : s.block.phase = .done ∨ s.block.phase = .failed)
    (he : s.offers = some e) (ho : s.responseStep = .next t) : Row s.block e t.block := by
  obtain ⟨hready, rfl⟩ : s.env.rspReady = true ∧ .response = e := by
    simpa [offers_response hp] using he
  rcases responseStep_next ho with ⟨hno, -⟩ | ⟨r, l, data, -, -, -, rfl⟩
  · simp [hready] at hno
  · exact .r28 _ hp

/-- The rows of the phases that run no instruction. -/
theorem Row.of_agentStep {s t : State} {e : Event} (hidle : s.block.phase ≠ .idle)
    (hbyte : ¬ (s.block.phase = .waitStatus ∨ s.block.phase = .waitCount)) (he : s.offers = some e)
    (ho : s.agentStep = .next t) : Row s.block e t.block := by
  unfold State.agentStep at ho
  split at ho
  case h_1 hp => exact absurd hp hidle
  case h_2 hp => exact Row.of_sendADone hp he ho
  case h_3 hp => exact absurd (.inl hp) hbyte
  case h_4 hp => exact Row.of_delayStep hp he ho
  case h_5 hp => exact Row.of_sendBDone hp he ho
  case h_6 hp => exact absurd (.inr hp) hbyte
  case h_7 hp => exact Row.of_payloadStep hp he ho
  case h_8 hp => exact Row.of_responseStep (.inl hp) he ho
  case h_9 hp => exact Row.of_responseStep (.inr hp) he ho
  case h_10 hp => exact Row.of_sendFDone hp he ho
  case h_11 hp => exact Row.of_sendRstDone hp he ho

/-- Every event the block works on is worked on by a row of the table. -/
theorem Row.of_work {s t : State} {e : Event} (hc : s.env.calls = []) (he : s.offers = some e)
    (ho : s.work = .next t) : Row s.block e t.block := by
  by_cases hidle : s.block.phase = .idle
  · obtain ⟨r, hhead, rfl⟩ : ∃ r, s.env.reqs.head? = some r ∧ .request r = e := by
      simpa [State.offers, hidle] using he
    obtain ⟨rest, hq⟩ := List.head?_eq_some_iff.1 hhead
    exact Row.of_request hidle (work_request hc hidle hq ▸ ho)
  by_cases hbyte : s.block.phase = .waitStatus ∨ s.block.phase = .waitCount
  · exact Row.of_waitByte hc hbyte he ho
  · obtain ⟨hstatus, hcount⟩ := not_or.1 hbyte
    rw [work_agent hc rfl ⟨hidle, hstatus, hcount⟩] at ho
    exact Row.of_agentStep hidle hbyte he ho

/-- Without its expiry the delay only counts TIMER, or a lag of the model's own, down (R106; log 7). -/
theorem delayStep_of_offers_none {s t : State} (hp : s.block.phase = .delaying) (hn : s.offers = none)
    (ho : s.delayStep = .next t) :
    t.block = s.block ∨ ∃ x, s.block.timer = some x ∧ x ≠ 0#32 ∧
      t.block = { s.block with timer := some (x - 1#32) } := by
  unfold State.delayStep at ho
  split at ho
  · cases ho
  · next x hx =>
    split_ifs at ho with h0
    · cases ho
      exact .inr ⟨x, hx, h0, rfl⟩
    · split at ho
      · cases ho; exact .inl rfl
      · next rest hlags => simp [State.offers, hp, hx, hlags, h0] at hn
      · cases ho; exact .inl rfl

theorem block_of_offers_none {s t : State} (hc : s.env.calls = []) (hn : s.offers = none)
    (ho : s.work = .next t) :
    t.block = s.block ∨ (s.block.phase = .delaying ∧ ∃ x, s.block.timer = some x ∧ x ≠ 0#32 ∧
      t.block = { s.block with timer := some (x - 1#32) }) := by
  by_cases hp : s.block.phase = .delaying
  · rw [work_agent hc hp (by decide)] at ho
    simp only [State.agentStep, hp] at ho
    exact (delayStep_of_offers_none hp hn ho).imp_right (.intro hp)
  · rw [work_of_offers_none hc hp hn] at ho
    cases ho
    exact .inl rfl

/-- Settles O57: the work of a state is the row of its event; the signals of the new phase are those of
any block in that phase. -/
theorem everyStepIsARowOfTheTable : Obligations.EveryStepIsARowOfTheTable := by
  intro s t _ hres hcalls ho
  obtain ⟨-, -, htx, hrx, -, hdata, hone, hcount, -⟩ := channelSignalsFollowThePhase t.block
  refine ⟨?_, fun hp => ⟨htx.2 hp, (hdata (htx.2 hp)).1⟩,
    fun hp => ⟨hrx.2 (hp.imp_right .inl), hone hp⟩, fun hp => ⟨hrx.2 (.inr (.inr hp)), hcount hp⟩⟩
  rcases resetDue_cases s with ⟨rest, hz, -⟩ | ⟨rs, -, hd⟩
  · exact absurd (by rw [hz]; rfl) hres
  simp only [step, hd] at ho
  split
  · next e he => exact Row.of_work (s := { s with env.resets := rs }) hcalls he ho
  · next hn => exact block_of_offers_none (s := { s with env.resets := rs }) hcalls hn ho

/-! ## A whole operation -/

theorem steps_succ {s t : State} (n : Nat) (h : step s = .next t) : s.steps (n + 1) = t.steps n := by
  have hcore : core.step s = .next t := h
  simp only [State.steps, Host.Core.run, hcore]
  rfl

/-- The request step of READ_REG without delay (row 5). -/
theorem step_readReg {s : State} {d : ReqFields} {p : List Byte} {reqs : List Request}
    (hres : s.env.resets = []) (hcalls : s.env.calls = []) (hp : s.block.phase = .idle)
    (hq : s.env.reqs = ⟨packDesc 0x03#8 d, p⟩ :: reqs) (hd : d.delay = 0#32) :
    step s = .next (({ s with env.reqs := reqs, env.payload := p }.latchRequest 0x03#8 d).startSend
      .sendA (buildCombined d.dev d.reg d.n)) := by
  rw [step_of_nil hres, work_request hcalls hp hq, decodeDesc_readReg (descOp_packDesc _ d),
    descFields_packDesc]
  exact readRegWithoutDelaySendsOnePacket d _ hp hd

/-- A first send that went well, of an operation that awaits a status byte (row 9). -/
theorem step_sent {s : State} {l : Latch} {m : List Byte} {tx : List SendStatus}
    (hres : s.env.resets = []) (hcalls : s.env.calls = []) (hp : s.block.phase = .sendA)
    (hl : s.block.latch = some l) (hop : l.op ≠ 0x01#8) (hm : s.block.txbuf = some m)
    (htx : s.env.tx = .ok :: tx) :
    step s = .next (({ s with env.tx := tx }.record (.send m .ok)).toPhase .waitStatus) := by
  rw [step_of_nil hres, work_sendA hcalls hp, sendADone_ok hm hl htx, if_neg hop]

/-- An accepted acknowledgment of READ_REG without delay (row 15). -/
theorem step_acknowledged {s : State} {l : Latch} {b : Byte} {rest : List RxItem}
    (hres : s.env.resets = []) (hcalls : s.env.calls = []) (hp : s.block.phase = .waitStatus)
    (hl : s.block.latch = some l) (hop : l.op = 0x03#8) (hd : l.delay = 0#32) (hb : isAccepted b = true)
    (hrx : s.env.rx = .byte b :: rest) :
    step s = .next (((s.setRx rest).record (.recv 1 (.ok [b]))).toPhase .waitCount) := by
  rw [step_of_nil hres, work_reply hcalls (.inl hp) hrx, replyStep_waitStatus (s := s.setRx rest) hp,
    statusStep_accepted hb, afterStatus_readReg (s := (s.setRx rest).record _) hl hop, if_pos hd]

/-- An accepted count (row 23). -/
theorem step_counted {s : State} {b : Byte} {rest : List RxItem} (hres : s.env.resets = [])
    (hcalls : s.env.calls = []) (hp : s.block.phase = .waitCount) (hb : isAccepted b = true)
    (hrx : s.env.rx = .byte b :: rest) :
    step s = .next { (s.setRx rest).record (.recv 1 (.ok [b])) with
      block.count := some b, block.phase := .waitPayload } := by
  rw [step_of_nil hres, work_reply hcalls (.inr hp) hrx, replyStep_waitCount (s := s.setRx rest) hp,
    countStep_accepted hb]

/-- The payload of COUNT bytes (row 25). -/
theorem step_payload {s : State} {c : Byte} {data : List Byte} {rest : List RxItem}
    (hres : s.env.resets = []) (hcalls : s.env.calls = []) (hp : s.block.phase = .waitPayload)
    (hc : s.block.count = some c) (hlen : data.length = c.toNat)
    (hrx : s.env.rx = data.map RxItem.byte ++ rest) :
    step s = .next (({ s.setRx rest with block.rxbuf := some data }.record
      (.recv c.toNat (.ok data))).respondOk c) :=
  payloadIsStoredUnchanged s c data rest hres hcalls hp hc hlen hrx

/-- The response, once the caller is ready (row 28). -/
theorem step_response {s : State} {l : Latch} {r : Result} {data : List Byte}
    (hres : s.env.resets = []) (hcalls : s.env.calls = []) (hp : s.block.phase = .done)
    (hready : s.env.rspReady = true) (hl : s.block.latch = some l) (hr : s.block.result = some r)
    (hd : rspDataOf s.block.rxbuf r = some data) : step s = .next (s.retire l r data) := by
  rw [step_of_nil hres, work_response hcalls (.inl hp), responseStep_ready hready hr hl hd]

/-- Settles O60: rows 5, 9, 15, 23, 25 and 28, one after the other. -/
theorem readRegWithoutDelayDeliversItsData : Obligations.ReadRegWithoutDelayDeliversItsData := by
  intro s d p data a c reqs tx rest hb hres hcalls hready hq hd htx ha hc hlen hrx
  have hidle : s.block.phase = .idle := by rw [hb]; rfl
  have hdata : rspDataOf (some data) (.ok c) = some data := rspDataOf_ok (.inr ⟨rfl, hlen⟩)
  have hrun := calc s.steps 6
    _ = _ := steps_succ 5 (step_readReg hres hcalls hidle hq hd)
    _ = _ := steps_succ 4 (step_sent hres hcalls rfl rfl (by decide : (0x03#8 : Byte) ≠ 0x01#8) rfl htx)
    _ = _ := steps_succ 3 (step_acknowledged hres hcalls rfl rfl rfl hd ha hrx)
    _ = _ := steps_succ 2 (step_counted hres hcalls rfl hc rfl)
    _ = _ := steps_succ 1 (step_payload hres hcalls rfl rfl hlen rfl)
    _ = _ := steps_succ 0 (step_response hres hcalls rfl hready rfl rfl hdata)
    _ = .next _ := rfl
  rw [← rspDescOf_ok]
  exact ⟨_, hrun, rfl, rfl, rfl, rfl, rfl, rfl, rfl⟩

end Sys2Proof.Machine

/-! PROOFS. The bus configuration family: the op codes no operation has (42_bus_config.md). -/

namespace Sys2Proof.Machine

/-! ## Reserved op codes -/

/-- The low bits count up from the word whose low bits are zero. -/
theorem append_eq_append_zero_add {m n : Nat} (hi : BitVec m) (lo : BitVec n) :
    hi ++ lo = (hi ++ 0#n) + lo.setWidth (m + n) := by
  have hlo : lo.setWidth (m + n) = 0#m ++ lo := by
    simp [BitVec.setWidth_eq_append (Nat.le_add_left n m)]
  rw [hlo, BitVec.append_zero_add_zero_append]

/-- In IDLE the reserved step latches the request and fails with PROTOCOL, its trace empty (R96). -/
theorem rejectReserved_eq_afterReserved {s : State} {op first : Byte} {d : ReqFields}
    (hs : s.block.phase = .idle) (hop : op = first) :
    s.rejectReserved op d = .next (s.afterReserved first d) :=
  hop ▸ rejectReserved_idle hs op d

/-- Settles O23: a reserved row's op code is the first of its range plus the free low bits, and a
descriptor's is the one the reserved step takes. -/
theorem reservedOpCodesFailWithProtocol : Obligations.ReservedOpCodesFailWithProtocol := by
  refine ⟨fun d s hs => ⟨?_, fun lo => ?_, fun lo => ?_, fun lo => ?_, fun lo => ?_, fun lo => ?_,
    fun lo => ?_⟩, fun v s hs hop => ?_⟩
  · exact rejectReserved_eq_afterReserved hs rfl
  · exact rejectReserved_eq_afterReserved hs (append_eq_append_zero_add 3#7 lo)
  · exact rejectReserved_eq_afterReserved hs (append_eq_append_zero_add 1#5 lo)
  · exact rejectReserved_eq_afterReserved hs (append_eq_append_zero_add 1#4 lo)
  · exact rejectReserved_eq_afterReserved hs (append_eq_append_zero_add 1#3 lo)
  · exact rejectReserved_eq_afterReserved hs (append_eq_append_zero_add 1#2 lo)
  · exact rejectReserved_eq_afterReserved hs (append_eq_append_zero_add 1#1 lo)
  · rw [exec_reserved hop]
    exact rejectReserved_eq_afterReserved hs rfl

end Sys2Proof.Machine

/-! PROOFS. What is left of the machine: the reset event, short payloads, replies nobody awaits and the
delay timer (10_state.md, 20_memory.md, 60_exceptions.md, 70_reset_and_hazards.md). -/

namespace Sys2Proof.Machine

/-! ## Reset -/

@[simp] theorem State.resetStep_tx (s : State) : s.resetStep.env.tx =
    if s.block.phase.sending then s.env.tx.tail else s.env.tx := rfl

@[simp] theorem State.resetStep_rx (s : State) : s.resetStep.env.rx =
    if s.block.phase.midOperation then Config.rxAfterReset s.draws else s.env.rx := rfl

@[simp] theorem State.resetStep_draws (s : State) : s.resetStep.draws =
    if s.block.phase.midOperation then s.draws + 1 else s.draws := rfl

/-- A reset that is due is the step, whatever else the state offers (R111). -/
theorem step_of_reset {s : State} {rest : List Nat} (h : s.env.resets = 0 :: rest) :
    step s = .next { s with env.resets := rest }.resetStep := by
  simp only [step, State.resetDue, h]

/-- Settles O47: the step is the reset; only the transport's two inputs and `draws` look at the phase. -/
theorem resetTakesEffectInAnyPhase : Obligations.ResetTakesEffectInAnyPhase := by
  intro s rest h
  refine ⟨_, step_of_reset h, rfl, rfl, rfl, rfl, rfl, rfl, rfl, rfl, fun hm => ?_, fun hv => ?_,
    fun hv => ?_, fun hm => ?_⟩
  · simp [hm]
  · have hsend : s.block.phase.sending = false := hv
    simp [hsend]
  · have hsend : s.block.phase.sending = true := hv
    simp [hsend]
  · simp [hm]

/-! ## Short payloads -/

/-- PBUF cannot give back `plen` bytes when `req_payload` had fewer (R22, R30). -/
theorem memRead_latchRequest_short (op : Byte) {d : ReqFields} {s : State}
    (h : s.env.payload.length < d.plen.toNat) :
    memRead (s.latchRequest op d).block.pbuf 0 d.plen.toNat = none := by
  simp [memRead, h]

/-- Settles O22: the length check passes, and the payload read back from PBUF fails. -/
theorem shortPayloadsFault : Obligations.ShortPayloadsFault := by
  intro d s hs hshort
  refine ⟨fun hlen => ?_, fun hlen => ?_⟩
  · simp only [exec, execWriteRaw, hs, lenCheckRaw_pass hlen, memRead_latchRequest_short _ hshort, if_true]
  · simp only [exec, execWriteReg, hs, lenCheckReg_pass hlen, memRead_latchRequest_short _ hshort, if_true]

/-! ## Replies nobody awaits -/

/-- A reply row is the reply step of the byte that encodes it (R62). -/
theorem reply_row_encode {i : Instr} (hi : i.format = .reply) :
    ∃ b, encode i = [b] ∧ ∀ s, exec i s = s.replyStep b := by
  cases i with
  | replyZero | errNone | errUnescape | errLength | errRead | errWriteData | errSendData | replyAccept =>
    exact ⟨_, rfl, fun _ => rfl⟩
  | _ => cases hi

/-- Settles O37: outside the two one-byte waits the reply step puts its byte back. -/
theorem otherPhasesLeaveRepliesInTheStream : Obligations.OtherPhasesLeaveRepliesInTheStream := by
  intro i s hi hstatus hcount
  obtain ⟨b, henc, hexec⟩ := reply_row_encode hi
  exact ⟨b, henc, (hexec s).trans (replyStep_other hstatus hcount b)⟩

/-! ## The delay timer -/

theorem work_delaying {s : State} (hc : s.env.calls = []) (hp : s.block.phase = .delaying) :
    s.work = s.delayStep := by
  rw [work_agent hc hp (by decide)]
  simp only [State.agentStep, hp]

theorem delayStep_count {s : State} {t : Word} (ht : s.block.timer = some t) (h0 : t ≠ 0#32) :
    s.delayStep = .next { s with block.timer := some (t - 1#32) } := by
  simp only [State.delayStep, ht, if_pos h0]

/-- Row 17: the expiry has come, and the read-follow packet is sent (R87, R106). -/
theorem delayStep_expiry {s : State} {l : Latch} {rest : List Nat} (ht : s.block.timer = some 0#32)
    (hlags : s.env.lags = 0 :: rest) (hl : s.block.latch = some l) :
    s.delayStep = .next ({ s with env.lags := rest, block.timer := none }.startSend .sendB
      (buildReadFollow l.n)) := by
  simp [State.delayStep, State.timerExpiry, ht, hlags, hl]

/-- The expiry is still some TIME_UNITs away (R106; log 7). -/
theorem delayStep_lag {s : State} {k : Nat} {rest : List Nat} (ht : s.block.timer = some 0#32)
    (hlags : s.env.lags = (k + 1) :: rest) :
    s.delayStep = .next { s with env.lags := k :: rest } := by
  simp [State.delayStep, ht, hlags]

/-- The expiry has not been announced (R106; log 7). -/
theorem delayStep_no_lag {s : State} (ht : s.block.timer = some 0#32) (hlags : s.env.lags = []) :
    s.delayStep = .next s := by
  simp [State.delayStep, ht, hlags]

/-- Settles O44: the step of DELAYING is the timer's, and at zero the head of the lags decides. -/
theorem delayEndsNoEarlierThanItsBound : Obligations.DelayEndsNoEarlierThanItsBound := by
  intro s l t hres hcalls hp hl ht
  rw [step_of_nil hres, work_delaying hcalls hp]
  refine ⟨delayStep_count ht, ?_, ?_, ?_⟩
  · rintro rfl rest hlags
    exact delayStep_expiry ht hlags hl
  · rintro rfl k rest hlags
    exact delayStep_lag ht hlags
  · rintro rfl hlags
    exact delayStep_no_lag ht hlags

end Sys2Proof.Machine
